-- ==== Sys2Proof/Word.lean ====
section
/-! DEFINITION. The plain types of the block: bytes, nibbles and byte sequences (spec 00_scope R7,
R10, R11). `TIME`, an unbounded natural number of milliseconds since reset (R7, decision D2), is Lean's `Nat`. -/

namespace Sys2Proof

/-- A byte is an unsigned 8-bit value (R10). -/
abbrev Byte := BitVec 8

/-- A 4-bit field of a packed byte (R10: high nibble `b[7:4]`, low nibble `b[3:0]`). -/
abbrev Nibble := BitVec 4

/-- A finite sequence of bytes, offset 0 first on the wire (R11). -/
abbrev Bytes := List Byte

/-- Exactly three bytes, as `MAGIC` and `RX_PREFIX` are (R7). -/
structure Byte3 where
  b0 : Byte
  b1 : Byte
  b2 : Byte
deriving DecidableEq, Repr

/-- The three bytes in wire order. -/
def Byte3.bytes (t : Byte3) : Bytes := [t.b0, t.b1, t.b2]

/-- Exactly five bytes, as the two decision tokens are (R7, R76: "fixed-width"). -/
structure Byte5 where
  b0 : Byte
  b1 : Byte
  b2 : Byte
  b3 : Byte
  b4 : Byte
deriving DecidableEq, Repr

/-- The five bytes in wire order. -/
def Byte5.bytes (t : Byte5) : Bytes := [t.b0, t.b1, t.b2, t.b3, t.b4]

end Sys2Proof
end

