-- ==== Sys2Proof/Config.lean ====
section
/-! DEFINITION. The configuration of the block (spec 00_scope R7, R8; 10_state R27): a plain record of the
parameters the source leaves OPEN, with the constraints R7 states, and constants for the parameters whose
value the source or the spec gives. -/

namespace Sys2Proof

/-- The parameters that R7 marks OPEN, and `DN_CRC`, whose default is the source's but which is an opt-in.
They are read-only straps (10_state R27). A statement over every state is one over every configuration. -/
structure Config where
  /-- `MAGIC`, 3 bytes, "constant across all frames". -/
  magic : Byte3
  /-- `RX_PREFIX`, 3 bytes, distinct from `MAGIC`. -/
  rxPrefix : Byte3
  /-- `RX_CHANNEL`, the byte at offset 5 of a downlink frame. -/
  rxChannel : Byte
  /-- `VERSION`. -/
  version : Nibble
  /-- `DEVICE_TYPE`, the code of the role "gate". -/
  deviceType : Nibble
  /-- `MT_ACK`, the `msg_type` of an acknowledgment, not 1. -/
  mtAck : Nibble
  /-- `KEY` of the obfuscation stage; empty is the no-op variant. -/
  key : Bytes
  /-- `DN_CRC`, the inbound checksum opt-in (decision D12). -/
  dnCrc : Bool
  /-- `TOKEN_GRANT`. -/
  tokenGrant : Byte5
  /-- `TOKEN_DENY`, different from `TOKEN_GRANT`. -/
  tokenDeny : Byte5
  /-- `POLL_INTERVAL_MS`, positive. -/
  pollInterval : Nat
  /-- `GRANT_HOLD_MS`. -/
  grantHold : Nat
  /-- `HEARTBEAT_INTERVAL_MS`: `none` is disabled, otherwise positive. -/
  heartbeatInterval : Option Nat
  /-- `HEARTBEAT_TEXT`. -/
  heartbeatText : Bytes
  /-- `ACK_TEXT_UNLOCK`. -/
  ackTextUnlock : Bytes
  /-- `ACK_TEXT_LOCK`. -/
  ackTextLock : Bytes
  /-- `ACK_TEXT_INVALID`. -/
  ackTextInvalid : Bytes
deriving DecidableEq, Repr

namespace Config

/-- The constraints R7 puts on the parameters. -/
abbrev wf (c : Config) : Prop :=
  c.rxPrefix ≠ c.magic ∧ c.mtAck ≠ 1#4 ∧ c.tokenDeny ≠ c.tokenGrant ∧ 0 < c.pollInterval ∧
    c.heartbeatInterval ≠ some 0

/-- CFG_REF, the spec's reference instantiation (R7, decision D41): placeholder values chosen by the spec
for its test vectors, "NOT values of the real device". No statement rests on them.
DESIGN CHOICE, log entry 1: `State.reset` carries this record. -/
def ref : Config where
  magic := ⟨0xAA#8, 0xBB#8, 0xCC#8⟩
  rxPrefix := ⟨0xDD#8, 0xEE#8, 0xFF#8⟩
  rxChannel := 0x01#8
  version := 1#4
  deviceType := 1#4
  mtAck := 6#4
  key := []
  dnCrc := false
  tokenGrant := ⟨0x47#8, 0x52#8, 0x41#8, 0x4E#8, 0x54#8⟩
  tokenDeny := ⟨0x44#8, 0x45#8, 0x4E#8, 0x59#8, 0x5F#8⟩
  pollInterval := 100
  grantHold := 5000
  heartbeatInterval := none
  heartbeatText := [0x68#8, 0x65#8, 0x61#8, 0x72#8, 0x74#8, 0x62#8, 0x65#8, 0x61#8, 0x74#8]
  ackTextUnlock := [0x4F#8, 0x4B#8]
  ackTextLock := [0x4F#8, 0x4B#8]
  ackTextInvalid := [0x42#8, 0x41#8, 0x44#8, 0x46#8, 0x4D#8, 0x54#8]

/-! The parameters R7 gives a value to (`source` or `decision`). -/

/-- `MT_SCAN` (source). -/
def mtScan : Nibble := 1#4
/-- `MT_STATUS` (source). -/
def mtStatus : Nibble := 6#4
/-- `ID_MAX`, the longest identifier payload (source). -/
def idMax : Nat := 10
/-- `TEXT_MAX`, the longest string payload (source). -/
def textMax : Nat := 16
/-- `FLAGS_TX`, the flags nibble transmitted (decision D7). -/
def flagsTx : Nibble := 0#4
/-- `STATUS_OPEN`, ASCII `open` (source). -/
def statusOpen : Bytes := [0x6F#8, 0x70#8, 0x65#8, 0x6E#8]
/-- `STATUS_CLOSED`, ASCII `clos` (source). -/
def statusClosed : Bytes := [0x63#8, 0x6C#8, 0x6F#8, 0x73#8]
/-- `RESPONSE_WINDOW_MS` (source: 12 s). -/
def responseWindow : Nat := 12000
/-- `DUR_MIN_MS` (source). -/
def durMin : Nat := 1000
/-- `DUR_MAX_MS` (source). -/
def durMax : Nat := 30000
/-- `DUR_DEFAULT_MS` (source). -/
def durDefault : Nat := 5000
/-- `ACK_OK`, ASCII `1` (decision D17). -/
def ackOk : Byte := 0x31#8
/-- `ACK_FAIL`, ASCII `0` (decision D17). -/
def ackFail : Byte := 0x30#8

/-! The fixed literals of the text layer (R8). -/

/-- The field delimiter `:`. -/
def colon : Byte := 0x3A#8
/-- ASCII `REMOTE_UNLOCK`, 13 bytes. -/
def remoteUnlockText : Bytes :=
  [0x52#8, 0x45#8, 0x4D#8, 0x4F#8, 0x54#8, 0x45#8, 0x5F#8, 0x55#8, 0x4E#8, 0x4C#8, 0x4F#8, 0x43#8, 0x4B#8]
/-- ASCII `REMOTE_LOCK`, 11 bytes. -/
def remoteLockText : Bytes :=
  [0x52#8, 0x45#8, 0x4D#8, 0x4F#8, 0x54#8, 0x45#8, 0x5F#8, 0x4C#8, 0x4F#8, 0x43#8, 0x4B#8]
/-- ASCII `ACK`, the acknowledgment head. -/
def ackHead : Bytes := [0x41#8, 0x43#8, 0x4B#8]

end Config

end Sys2Proof
end

