-- ==== Sys2Proof/Syntax.lean ====
section
/-! DEFINITION. The syntax: one constructor of `Instr` for each of the 43 rows of spec/opcode_table.json,
with the operands the row's `source_fields` and its rule give, and the tagged variants the operations
return (spec 00_scope R12, 40_frame_codec, 45_command_dispatcher). -/

namespace Sys2Proof

/-- The header fields of an uplink frame that the payload and `msg_type` do not determine
(30_encoding R61): bytes 3 (low nibble), 4, 5-6, 7-10. -/
structure UpHeader where
  version : Nibble
  flags : Nibble
  deviceType : Nibble
  sequence : BitVec 16
  timestamp : BitVec 32
deriving DecidableEq, Repr

/-- The 43 operations of the block, in the table's order. Formats `UP` and `DN/TXT` have wire encodings;
the `FUNC` rows have none (30_encoding R85). A `now` operand is the clock sample of R13. -/
inductive Instr where
  -- format UP: frames the Uplink Sender transmits (R61, R85)
  | scan (hdr : UpHeader) (payload : Bytes)
  | status (hdr : UpHeader) (payload : Bytes)
  | ack (hdr : UpHeader) (payload : Bytes)
  -- format DN/TXT: what a de-obfuscated downlink payload says (R76 to R78, R85)
  | grant
  | deny
  | remoteUnlock (cid ini dur : Bytes)
  | remoteLock (cid ini : Bytes)
  | invalidUnlock (fields : List Bytes)
  | invalidLock (fields : List Bytes)
  | unrecognized (payload : Bytes)
  -- format FUNC: Frame Codec
  | packTv (msgType version : Nibble)
  | packFd (flags deviceType : Nibble)
  | unpackNib (b : Byte)
  | enc (msgType deviceType : Nibble) (sequence : BitVec 16) (timestamp : BitVec 32) (payload : Bytes)
  | decUp (buf : Bytes)
  | decDn (buf : Bytes)
  | upReceive (buf : Bytes)
  | dnReceive (buf : Bytes)
  -- format FUNC: Integrity Stage and Obfuscation Stage
  | crc32 (data : Bytes)
  | crcAppend (frame : Bytes)
  | crcVerify (data : Bytes) (checksum : BitVec 32)
  | xorTransform (payload key : Bytes)
  -- format FUNC: Uplink Sender
  | txFrame (now : Nat) (msgType : Nibble) (payload : Bytes)
  | sendScan (now : Nat) (id : Bytes)
  | sendStatus (now : Nat) (text : Bytes)
  | sendAck (now : Nat) (cid : Bytes) (flag : Byte) (text : Bytes)
  | heartbeat (now : Nat)
  -- format FUNC: Downlink Receiver and Exchange State Machine
  | loopStep (now : Nat)
  | xOpen (now : Nat) (id : Bytes)
  | rxProcess (now : Nat) (buf : Bytes)
  | classify (payload : Bytes)
  | xGrant (now : Nat)
  | xDeny (now : Nat)
  | xTimeout (now : Nat)
  | xClose
  | holdFinish (now : Nat)
  | holdWait (now : Nat)
  -- format FUNC: Remote Command Dispatcher and reset
  | split (payload : Bytes)
  | parseCmd (payload : Bytes)
  | parseDuration (text : Bytes)
  | clampDuration (parsed : Option Nat)
  | cmdClear
  | reset
deriving DecidableEq, Repr

/-- The reasons `r` of `Malformed(r)` (60_exceptions R188), in the order they are tested. -/
inductive MalformedReason where
  | tooShort
  | badHeader
  | badChannel
  | lengthMismatch
deriving DecidableEq, Repr

/-- The result of `ENC` (40_frame_codec R93): a whole frame or the failure `EncodeRejected`. -/
inductive EncResult where
  | frame (F : Bytes)
  | encodeRejected
deriving DecidableEq, Repr

/-- `Frame{...}` of `DEC_UP` and `UP_RECEIVE` (40_frame_codec R95, R98). -/
structure UpFrame where
  msgType : Nibble
  version : Nibble
  flags : Nibble
  deviceType : Nibble
  sequence : BitVec 16
  timestamp : BitVec 32
  payloadLength : Nat
  payload : Bytes
  checksum : BitVec 32
deriving DecidableEq, Repr

/-- The result of `DEC_UP` (R95). -/
inductive UpDecoded where
  | frame (fr : UpFrame)
  | malformed (r : MalformedReason)
deriving DecidableEq, Repr

/-- The result of `UP_RECEIVE` (R98). -/
inductive UpReceived where
  | frame (fr : UpFrame)
  | malformed (r : MalformedReason)
  | checksumMismatch
deriving DecidableEq, Repr

/-- `DnFrame{...}` of `DEC_DN` (R96). -/
structure DnFrame where
  payloadLength : Nat
  payload : Bytes
  trailer : Option (BitVec 32)
deriving DecidableEq, Repr

/-- The result of `DEC_DN` (R96). -/
inductive DnDecoded where
  | frame (fr : DnFrame)
  | malformed (r : MalformedReason)
deriving DecidableEq, Repr

/-- The result of `DN_RECEIVE` (R99). -/
inductive DnReceived where
  | payload (Q : Bytes)
  | malformed (r : MalformedReason)
  | checksumMismatch
deriving DecidableEq, Repr

/-- The tagged variants of `PARSE_CMD` and `CLASSIFY` (45_command_dispatcher R162; 44_exchange_fsm R141). -/
inductive Classified where
  | grantToken
  | denyToken
  | unlock (cid ini : Bytes) (duration : Nat)
  | lock (cid ini : Bytes)
  | invalidUnlock (cid : Bytes)
  | invalidLock
  | notACommand
deriving DecidableEq, Repr

end Sys2Proof
end

