-- ==== Sys2Proof/Machine/Contract.lean ====
section
/-! DEFINITION. The host's contract (spec 10_state R15, 60_exceptions R207; log entry 24): which operations of the table the
surrounding software can ask of the block. The type of a request carries it, so that no state can hold another. -/

namespace Sys2Proof.Machine

/-- What the host may ask: RESET, LOOP_STEP and the pure functions ENC, DEC_UP, DEC_DN, CRC32, XOR_TRANSFORM and
PARSE_CMD (60_exceptions R207). What is not in that table is unsaid: that the eleven other operations that write no
register can be asked for too, UP_RECEIVE with its condition among them, is the model's (DESIGN CHOICE, log entry 24). The
rest run inside LOOP_STEP only: "the only ways to change state are RESET and LOOP_STEP" (10_state R15). -/
def hostMay : Instr → Bool
  | .scan _ _ => false
  | .status _ _ => false
  | .ack _ _ => false
  | .grant => false
  | .deny => false
  | .remoteUnlock _ _ _ => false
  | .remoteLock _ _ => false
  | .invalidUnlock _ => false
  | .invalidLock _ => false
  | .unrecognized _ => false
  | .packTv _ _ => true
  | .packFd _ _ => true
  | .unpackNib _ => true
  | .enc _ _ _ _ _ => true
  | .decUp _ => true
  | .decDn _ => true
  | .upReceive _ => true
  | .dnReceive _ => true
  | .crc32 _ => true
  | .crcAppend _ => true
  | .crcVerify _ _ => true
  | .xorTransform _ _ => true
  | .txFrame _ _ _ => false
  | .sendScan _ _ => false
  | .sendStatus _ _ => false
  | .sendAck _ _ _ _ => false
  | .heartbeat _ => false
  | .loopStep _ => true
  | .xOpen _ _ => false
  | .rxProcess _ _ => false
  | .classify _ => true
  | .xGrant _ => false
  | .xDeny _ => false
  | .xTimeout _ => false
  | .xClose => false
  | .holdFinish _ => false
  | .holdWait _ => false
  | .split _ => true
  | .parseCmd _ => true
  | .parseDuration _ => true
  | .clampDuration _ => true
  | .cmdClear => false
  | .reset => true

/-- The pure operations: those `hostMay` allows beside RESET and LOOP_STEP, R207's six and eleven more (log entry 24). -/
def isPure (i : Instr) : Bool :=
  match i with
  | .loopStep _ => false
  | .reset => false
  | i => hostMay i

end Sys2Proof.Machine
end

