-- ==== Sys2Proof/Machine/State.lean ====
section
/-! DEFINITION. The state of the block as plain data: its fifteen registers (spec 10_state R16), its read-only
configuration (R27) and the model's own record of the environment (00_scope R13, 10_state R30); the state after
reset (70_reset R210); the reasons a step can stop. -/

namespace Sys2Proof.Machine

/-- `XSTATE` (R17). -/
inductive XState where
  | idle
  | scanSent
  | awaitingDecision
  | granted
  | denied
  | timedOut
deriving DecidableEq, Repr

/-- `XOUTCOME` (R16, R21), and the outcome `report` carries. -/
inductive XOutcome where
  | pending
  | granted
  | denied
  | timedOut
deriving DecidableEq, Repr

/-- `HOLD_CAUSE` (R23). -/
inductive HoldCause where
  | grant
  | unlock
deriving DecidableEq, Repr

/-- `CMD_KIND` (R24), and the kind `InvalidCommandFormat` records. -/
inductive CmdKind where
  | unlock
  | lock
deriving DecidableEq, Repr

/-- Which decision token (R76). -/
inductive Decision where
  | grant
  | deny
deriving DecidableEq, Repr

/-- The two uses of the actuator (R13: `act(Open)`, `act(Close)`). -/
inductive Actuation where
  | openGate
  | closeGate
deriving DecidableEq, Repr

/-- The answer of `send(F)` (R13). -/
inductive SendAnswer where
  | ok
  | fail
deriving DecidableEq, Repr

/-- The eight conditions of 60_exceptions R185, each with the `info` it records. -/
inductive Diag where
  | malformedFrame (r : MalformedReason)
  | checksumMismatch
  | unrecognizedToken (length : Nat)
  | exchangeTimeout (xseq : BitVec 16)
  | invalidCommandFormat (kind : CmdKind)
  | sendFailed (sequenceBytes : Bytes)
  | encodeRejected (length : Nat)
  | strayDecision (token : Decision)
deriving DecidableEq, Repr

/-- An output call of the block (R13), as the spec's traces list them. -/
inductive EnvCall where
  | send (F : Bytes)
  | act (a : Actuation)
  | report (o : XOutcome)
  | diag (d : Diag)
deriving DecidableEq, Repr

/-- The result of `SEND_SCAN` (43_uplink_sender R124). -/
inductive ScanSent where
  | sent (s : BitVec 16)
  | rejected
deriving DecidableEq, Repr

/-- What an operation that returns something returned. -/
inductive Value where
  | byte (b : Byte)
  | nibbles (hi lo : Nibble)
  | encResult (r : EncResult)
  | upDecoded (r : UpDecoded)
  | dnDecoded (r : DnDecoded)
  /-- What `UP_RECEIVE` returns, with the condition it raises to its caller (log entry 12). -/
  | upReceived (r : UpReceived) (raised : Option Diag)
  | dnReceived (r : DnReceived)
  | checksum (c : BitVec 32)
  | bytes (b : Bytes)
  | bool (b : Bool)
  | scanSent (r : ScanSent)
  | classified (r : Classified)
  | fields (f : List Bytes)
  | duration (d : Option Nat)
  | natural (n : Nat)
deriving DecidableEq, Repr

/-- What the surrounding software asks of the block (60_exceptions R207; log entries 4 and 24). An operation that is
internal to `LOOP_STEP` cannot be asked for (10_state R15). -/
inductive Request where
  /-- Run an operation the host may call. -/
  | call (i : Instr) (allowed : hostMay i = true)
  /-- A remote command in the bus's structured form, whose format no source gives (00_scope R5). -/
  | busCommand (message : Bytes)
deriving DecidableEq, Repr

/-- The block raises no fault: "a model's step function is total and has no fault outcome of its own"
(60_exceptions R186). The type has no constructor, so that no meaning can stop with one. -/
inductive Fault where
deriving DecidableEq, Repr

/-- Why the model has no next state. -/
inductive Refusal where
  /-- Raised by an arm of `exec` for an instruction that has no meaning yet; safe (the model stops). -/
  | notModelled (mnemonic : String)
  /-- Raised by `step` on a remote command in the bus's structured form, which the spec says a model refuses by
  name (00_scope R5, decision D33); safe (the model stops). -/
  | busCommandForm
deriving DecidableEq, Repr

/-- The state. The first fifteen fields are the complete architectural state of R16. -/
structure State where
  /-- `SEQ` -/
  seq : BitVec 16
  /-- `XSTATE` -/
  xstate : XState
  /-- `XSEQ` -/
  xseq : BitVec 16
  /-- `XDEADLINE` -/
  xdeadline : Nat
  /-- `XOUTCOME` -/
  xoutcome : XOutcome
  /-- `NEXT_POLL` -/
  nextPoll : Nat
  /-- `HOLD_ACTIVE` -/
  holdActive : Bool
  /-- `HOLD_CAUSE` -/
  holdCause : HoldCause
  /-- `HOLD_DEADLINE` -/
  holdDeadline : Nat
  /-- `CMD_VALID` -/
  cmdValid : Bool
  /-- `CMD_KIND` -/
  cmdKind : CmdKind
  /-- `CMD_ID` -/
  cmdId : Bytes
  /-- `CMD_INITIATOR` -/
  cmdInitiator : Bytes
  /-- `CMD_DURATION` -/
  cmdDuration : Nat
  /-- `HB_LAST` -/
  hbLast : Nat
  /-- The straps of R27: no operation writes them. -/
  cfg : Config
  /-- The model's own: the last clock sample (log entry 3). -/
  clock : Nat
  /-- The model's own: what `sensor_poll()` will answer, next first (log entry 2). -/
  sensorAnswers : List (Option Bytes)
  /-- The model's own: what `poll()` will answer, next first (log entry 2). -/
  pollAnswers : List (Option Bytes)
  /-- The model's own: what `send` will answer, next first (log entry 2). -/
  sendAnswers : List SendAnswer
  /-- The model's own: what the host asks next, oldest first (log entry 4). -/
  requests : List Request
  /-- The model's own: the output calls made, oldest first (log entry 14). -/
  calls : List EnvCall
  /-- The model's own: what the last operation that returns a value returned (log entry 13). -/
  result : Option Value
deriving DecidableEq, Repr

/-- The state after reset (R210) under a configuration: every register at the value of R16, and an environment
that has offered, been asked and answered nothing (DESIGN CHOICE, log entries 2, 3, 4, 13 and 14). -/
def State.resetWith (c : Config) : State where
  seq := 0#16
  xstate := .idle
  xseq := 0#16
  xdeadline := 0
  xoutcome := .pending
  nextPoll := 0
  holdActive := false
  holdCause := .grant
  holdDeadline := 0
  cmdValid := false
  cmdKind := .unlock
  cmdId := []
  cmdInitiator := []
  cmdDuration := 0
  hbLast := 0
  cfg := c
  clock := 0
  sensorAnswers := []
  pollAnswers := []
  sendAnswers := []
  requests := []
  calls := []
  result := none

/-- The machine right after reset, with the straps of CFG_REF (DESIGN CHOICE, log entry 1). -/
def State.reset : State := State.resetWith Config.ref

end Sys2Proof.Machine
end

