-- ==== Sys2Proof/Machine/Ops.lean ====
section
/-! DEFINITION. The named operations on the environment (spec 00_scope R13): the calls the block makes and the
answers it gets, and raising a condition (60_exceptions R186), which is the block's whole "exception entry". -/

namespace Sys2Proof.Machine

/-- Makes one output call. -/
def emit (c : EnvCall) (s : State) : State := { s with calls := s.calls ++ [c] }

/-- `raise E(info)` (R186): emits `diag(E, info)` and goes on. It saves no state, switches no mode and uses no
vector (R198); there is nothing to return from (R199). The recovery is what the raising operation does next. -/
def raise (d : Diag) (s : State) : State := emit (.diag d) s

/-- `act(Open)` and `act(Close)` (R13). -/
def act (a : Actuation) (s : State) : State := emit (.act a) s

/-- `report(o)` (R13). -/
def report (o : XOutcome) (s : State) : State := emit (.report o) s

/-- `send(F)` (R13): hands over the whole frame and takes the transport's next answer, `ok` when none is
listed (log entry 2). -/
def send (F : Bytes) (s : State) : SendAnswer × State :=
  (s.sendAnswers.headD .ok, emit (.send F) { s with sendAnswers := s.sendAnswers.tail })

/-- `sensor_poll()` (R13): the sensor's next answer, `none` when none is listed (log entry 2). -/
def sensorPoll (s : State) : Option Bytes × State :=
  (s.sensorAnswers.headD none, { s with sensorAnswers := s.sensorAnswers.tail })

/-- `poll()` (R13, 20_memory R44): one whole received buffer or `none`; it consumes what it returns. -/
def poll (s : State) : Option Bytes × State :=
  (s.pollAnswers.headD none, { s with pollAnswers := s.pollAnswers.tail })

/-- The clock sample of a step (R13, R136), kept as the model's own record (log entry 3). -/
def sampleClock (now : Nat) (s : State) : State := { s with clock := now }

/-- A pure function hands its value to its caller and touches no register (60_exceptions R207). -/
def returnValue (v : Value) (s : State) : State := { s with result := some v }

end Sys2Proof.Machine
end

