-- ==== Sys2Proof/Machine/Flags.lean ====
section
/-! DEFINITION. The one-bit state elements `HOLD_ACTIVE` and `CMD_VALID` with the records they guard (spec 10_state
R23, R24, R28), and the exchange record (R21). The block has no condition codes (R28). -/

namespace Sys2Proof.Machine

/-- Starts a hold (R142, R167): `HOLD_CAUSE`, `HOLD_DEADLINE`, then sets `HOLD_ACTIVE`. -/
def startHold (cause : HoldCause) (deadline : Nat) (s : State) : State :=
  { s with holdCause := cause, holdDeadline := deadline, holdActive := true }

/-- Ends a hold (R146): clears `HOLD_ACTIVE` and the two registers beside it. -/
def endHold (s : State) : State :=
  { s with holdActive := false, holdCause := .grant, holdDeadline := 0 }

/-- Fills the command record and sets `CMD_VALID` (R167, R168). -/
def setCommand (kind : CmdKind) (cid ini : Bytes) (duration : Nat) (s : State) : State :=
  { s with cmdKind := kind, cmdId := cid, cmdInitiator := ini, cmdDuration := duration, cmdValid := true }

/-- `CMD_CLEAR` (R172). -/
def cmdClear (s : State) : State :=
  { s with cmdValid := false, cmdKind := .unlock, cmdId := [], cmdInitiator := [], cmdDuration := 0 }

/-- The ordered writes that open an exchange (R138): through `ScanSent` to `AwaitingDecision`. -/
def openExchange (now : Nat) (sequence : BitVec 16) (s : State) : State :=
  let s := { s with xstate := .scanSent }
  let s := { s with xseq := sequence, xdeadline := now + Config.responseWindow, xoutcome := .pending }
  let s := { s with xstate := .awaitingDecision }
  { s with nextPoll := now }

/-- The outcome and the state it puts the exchange in (R142, R143, R144). -/
def resolve (outcome : XOutcome) (state : XState) (s : State) : State :=
  { s with xoutcome := outcome, xstate := state }

/-- `X_CLOSE` (R145): the exchange record returns to its reset values. -/
def xClose (s : State) : State :=
  { s with xstate := .idle, xseq := 0#16, xdeadline := 0, xoutcome := .pending, nextPoll := 0 }

end Sys2Proof.Machine
end

