-- ==== Sys2Proof/Machine/Operands.lean ====
section
/-! DEFINITION. Operand assembly: packed nibbles (spec 30_encoding R63, 40_frame_codec R90 to R92), little-endian
fields (00_scope R11, 20_memory R42) and the frame-buffer accessors `MemRead` and `MemWrite` (20_memory R41). -/

namespace Sys2Proof.Machine

/-- `PACK_TV(t, v) = t || v` (R90): high nibble `msg_type`, low nibble `version`. -/
def packTv (t v : Nibble) : Byte := (t.setWidth 8 <<< 4) ||| v.setWidth 8

/-- `PACK_FD(f, d) = f || d` (R91): high nibble `flags`, low nibble `device_type`. -/
def packFd (f d : Nibble) : Byte := (f.setWidth 8 <<< 4) ||| d.setWidth 8

/-- `UNPACK_NIB(b) = (b[7:4], b[3:0])` (R92). -/
def unpackNib (b : Byte) : Nibble × Nibble := (b.extractLsb' 4 4, b.extractLsb' 0 4)

/-- `le16(v) = [v[7:0], v[15:8]]` (R11). -/
def le16 (v : BitVec 16) : Bytes := [v.extractLsb' 0 8, v.extractLsb' 8 8]

/-- `le32(v)`, least significant byte first (R11). -/
def le32 (v : BitVec 32) : Bytes :=
  [v.extractLsb' 0 8, v.extractLsb' 8 8, v.extractLsb' 16 8, v.extractLsb' 24 8]

/-- `MemRead(o, 1) = B[o]` (R41). Past the end it answers 0, which no decoder reaches (log entry 17). -/
def memRead1 (B : Bytes) (o : Nat) : Byte := B.getD o 0#8

/-- `MemRead(o, 2) = rd16(B, o)` (R11, R41). -/
def memRead2 (B : Bytes) (o : Nat) : BitVec 16 := memRead1 B (o + 1) ++ memRead1 B o

/-- `MemRead(o, 4) = rd32(B, o)` (R11, R41). -/
def memRead4 (B : Bytes) (o : Nat) : BitVec 32 :=
  memRead1 B (o + 3) ++ memRead1 B (o + 2) ++ memRead1 B (o + 1) ++ memRead1 B o

/-- Stores the bytes `v` at offsets `o, o+1, …`, appending where the buffer ends (R12: "appends or stores").
At an offset past the end, where the spec gives no effect, the bytes are appended at the end (DESIGN CHOICE, log
entry 23). -/
def memWriteBytes (B : Bytes) (o : Nat) (v : Bytes) : Bytes := B.take o ++ v ++ B.drop (o + v.length)

/-- `MemWrite(o, 1, v)` (R41). -/
def memWrite1 (B : Bytes) (o : Nat) (v : Byte) : Bytes := memWriteBytes B o [v]

/-- `MemWrite(o, 2, v)` (R41). -/
def memWrite2 (B : Bytes) (o : Nat) (v : BitVec 16) : Bytes := memWriteBytes B o (le16 v)

/-- `MemWrite(o, 4, v)` (R41). -/
def memWrite4 (B : Bytes) (o : Nat) (v : BitVec 32) : Bytes := memWriteBytes B o (le32 v)

/-- `B[a .. a+n-1]` (R11): `n` bytes from offset `a`. -/
def slice (B : Bytes) (a n : Nat) : Bytes := (B.drop a).take n

end Sys2Proof.Machine
end

