-- ==== Sys2Proof/Machine/Integrity.lean ====
section
/-! DEFINITION. The Integrity Stage (spec 41_integrity R105 to R108): the 32-bit checksum, its generator and its
verifier. Pure functions. -/

namespace Sys2Proof.Machine

/-- The polynomial of R105. -/
def crcPoly : BitVec 32 := 0x04C11DB7#32

/-- One pass of the inner loop of R105: shift left, and subtract the polynomial when bit 31 was set. -/
def crcBit (crc : BitVec 32) : BitVec 32 :=
  if crc.msb then (crc <<< 1) ^^^ crcPoly else crc <<< 1

/-- `repeat n times` of the inner loop of R105. -/
def crcBits : Nat → BitVec 32 → BitVec 32
  | 0, crc => crc
  | n + 1, crc => crcBits n (crcBit crc)

/-- One byte enters at the top (R105: MSB-first), then eight bits are processed. -/
def crcByte (crc : BitVec 32) (b : Byte) : BitVec 32 := crcBits 8 (crc ^^^ (b.setWidth 32 <<< 24))

/-- The outer loop of R105, bytes in offset order. -/
def crcBytes (crc : BitVec 32) : Bytes → BitVec 32
  | [] => crc
  | b :: rest => crcBytes (crcByte crc b) rest

/-- `CRC32(D)` (R105): initial value and final XOR `0xFFFFFFFF`, no reflection. -/
def crc32 (D : Bytes) : BitVec 32 := crcBytes 0xFFFFFFFF#32 D ^^^ 0xFFFFFFFF#32

/-- `CRC_APPEND(G)` (R107): the checksum of bytes 3 to the end, least significant byte first. -/
def crcAppend (G : Bytes) : Bytes := G ++ le32 (crc32 (G.drop 3))

/-- `CRC_VERIFY(D, c)` (R108): recompute and compare. -/
def crcVerify (D : Bytes) (c : BitVec 32) : Bool := crc32 D == c

end Sys2Proof.Machine
end

