-- ==== Sys2Proof/Machine/Obfuscation.lean ====
section
/-! DEFINITION. The Obfuscation Stage (spec 42_obfuscation R115 to R118): byte-wise XOR with a repeating key. -/

namespace Sys2Proof.Machine

/-- XOR of the payload from its byte `i` on: byte `i` with `K[i mod len(K)]` (R115). Used with `K` non-empty. -/
def xorFrom (K : Bytes) : Nat → Bytes → Bytes
  | _, [] => []
  | i, p :: rest => (p ^^^ memRead1 K (i % K.length)) :: xorFrom K (i + 1) rest

/-- `XOR_TRANSFORM(P, K)` (R115): the identity for the empty key, else byte `i` with `K[i mod len(K)]`, `i`
counted from the first payload byte of every frame. -/
def xorTransform (P K : Bytes) : Bytes :=
  match K with
  | [] => P
  | _ :: _ => xorFrom K 0 P

/-- A stage with the type the codec is parametrised by (R94, R118: "pluggable, swappable"). -/
abbrev Stage := Bytes → Bytes

/-- The configured stage: `XOR_TRANSFORM` with the parameter `KEY` (R118). -/
def stageOf (c : Config) : Stage := fun P => xorTransform P c.key

end Sys2Proof.Machine
end

