-- ==== Sys2Proof/Machine/Codec.lean ====
section
/-! DEFINITION. The Frame Codec (spec 40_frame_codec R93 to R99): encode, the two structural decoders and the two
receive pipelines. Pure functions; the obfuscation stage is a function argument (R94, R118). -/

namespace Sys2Proof.Machine

/-- The payload `ENC` carries, or `none` for `EncodeRejected` (R93): the identifier class rejects above
`ID_MAX`, the string class keeps its first `TEXT_MAX` bytes. -/
def classPayload (msgType : Nibble) (payload : Bytes) : Option Bytes :=
  if msgType = Config.mtScan then
    (if Config.idMax < payload.length then none else some payload)
  else some (payload.take Config.textMax)

/-- Bytes 0 to 11+L of an uplink frame with the wire payload `W` (30_encoding R61). -/
def upBody (c : Config) (msgType version flags deviceType : Nibble) (sequence : BitVec 16)
    (timestamp : BitVec 32) (W : Bytes) : Bytes :=
  c.magic.bytes ++ [packTv msgType version, packFd flags deviceType] ++ le16 sequence ++ le32 timestamp ++
    [BitVec.ofNat 8 W.length] ++ W

/-- `ENC` with the obfuscation stage as an argument (R93, R94). -/
def encWith (stage : Stage) (c : Config) (msgType deviceType : Nibble) (sequence : BitVec 16)
    (timestamp : BitVec 32) (payload : Bytes) : EncResult :=
  match classPayload msgType payload with
  | none => .encodeRejected
  | some P =>
    .frame (crcAppend (upBody c msgType c.version Config.flagsTx deviceType sequence timestamp (stage P)))

/-- `ENC` (R93) with the configured stage. -/
def enc (c : Config) (msgType deviceType : Nibble) (sequence : BitVec 16) (timestamp : BitVec 32)
    (payload : Bytes) : EncResult :=
  encWith (stageOf c) c msgType deviceType sequence timestamp payload

/-- `DEC_UP` (R95), the structural decoder of the uplink format. -/
def decUp (c : Config) (B : Bytes) : UpDecoded :=
  if B.length < 16 then .malformed .tooShort
  else if B.take 3 ≠ c.magic.bytes then .malformed .badHeader
  else
    let L := (memRead1 B 11).toNat
    if 16 + L ≠ B.length then .malformed .lengthMismatch
    else
      let (t, v) := unpackNib (memRead1 B 3)
      let (f, d) := unpackNib (memRead1 B 4)
      .frame { msgType := t, version := v, flags := f, deviceType := d,
               sequence := memRead2 B 5, timestamp := memRead4 B 7, payloadLength := L,
               payload := slice B 12 L, checksum := memRead4 B (12 + L) }

/-- The trailer length of a downlink frame: 4 with `DN_CRC`, else 0 (R96). -/
def dnTrailerLength (c : Config) : Nat := if c.dnCrc then 4 else 0

/-- `DEC_DN` (R96), the structural decoder of the downlink format. Bytes 3 and 4 are not examined (R71). -/
def decDn (c : Config) (B : Bytes) : DnDecoded :=
  if B.length < 7 + dnTrailerLength c then .malformed .tooShort
  else if B.take 3 ≠ c.rxPrefix.bytes then .malformed .badHeader
  else if memRead1 B 5 ≠ c.rxChannel then .malformed .badChannel
  else
    let L := (memRead1 B 6).toNat
    if 7 + L + dnTrailerLength c ≠ B.length then .malformed .lengthMismatch
    else .frame { payloadLength := L, payload := slice B 7 L,
                  trailer := if c.dnCrc then some (memRead4 B (7 + L)) else none }

/-- `UP_RECEIVE` with the stage as an argument (R98): decode, verify, undo the obfuscation. -/
def upReceiveWith (stage : Stage) (c : Config) (B : Bytes) : UpReceived :=
  match decUp c B with
  | .malformed r => .malformed r
  | .frame fr =>
    if crcVerify (slice B 3 (9 + fr.payloadLength)) fr.checksum then
      .frame { fr with payload := stage fr.payload }
    else .checksumMismatch

/-- `UP_RECEIVE` (R98) with the configured stage. -/
def upReceive (c : Config) (B : Bytes) : UpReceived := upReceiveWith (stageOf c) c B

/-- `DN_RECEIVE` with the stage as an argument (R99). The checksum is verified only when the decoder
delivered a trailer, which it does exactly with `DN_CRC` (90_conflicts C2, C8). -/
def dnReceiveWith (stage : Stage) (c : Config) (B : Bytes) : DnReceived :=
  match decDn c B with
  | .malformed r => .malformed r
  | .frame fr =>
    match fr.trailer with
    | some t =>
      if crcVerify (slice B 3 (4 + fr.payloadLength)) t then .payload (stage fr.payload)
      else .checksumMismatch
    | none => .payload (stage fr.payload)

/-- `DN_RECEIVE` (R99) with the configured stage. -/
def dnReceive (c : Config) (B : Bytes) : DnReceived := dnReceiveWith (stageOf c) c B

end Sys2Proof.Machine
end

