-- ==== Sys2Proof/Machine/Parser.lean ====
section
/-! DEFINITION. The text parser (spec 45_command_dispatcher R161 to R165) and the classification of a downlink
payload (44_exchange_fsm R141). Pure functions. -/

namespace Sys2Proof.Machine

/-- Puts the byte `b` before the first field of a field list. -/
def prependByte (b : Byte) : List Bytes → List Bytes
  | [] => [[b]]
  | f :: rest => (b :: f) :: rest

/-- `SPLIT(Q)` (R161): the fields of `Q` separated at every `:`; never empty. -/
def split : Bytes → List Bytes
  | [] => [[]]
  | b :: rest => if b = Config.colon then [] :: split rest else prependByte b (split rest)

/-- The fields of a text joined by `:` (R161: "Joining the fields with `:` gives back `Q`"). -/
def joinFields : List Bytes → Bytes
  | [] => []
  | [f] => f
  | f :: rest => f ++ [Config.colon] ++ joinFields rest

/-- An ASCII digit `30`..`39` (R163). -/
def isDigit (b : Byte) : Bool := 0x30 ≤ b.toNat && b.toNat ≤ 0x39

/-- The decimal value of a digit string read after the value `acc` (R163: a natural, no upper limit). -/
def digitsValue (acc : Nat) : Bytes → Nat
  | [] => acc
  | b :: rest => digitsValue (10 * acc + (b.toNat - 0x30)) rest

/-- `PARSE_DURATION(s)` (R163): one or more digits, else `none`. -/
def parseDuration (s : Bytes) : Option Nat :=
  if 1 ≤ s.length ∧ s.all isDigit then some (digitsValue 0 s) else none

/-- `CLAMP_DURATION(x)` (R165): above the maximum clamps, below the minimum gives the default. -/
def clampDuration : Option Nat → Nat
  | none => Config.durDefault
  | some v =>
    if Config.durMax < v then Config.durMax
    else if v < Config.durMin then Config.durDefault
    else v

/-- `PARSE_CMD(Q)` (R162). -/
def parseCmd (Q : Bytes) : Classified :=
  let f := split Q
  if f.headD [] = Config.remoteUnlockText then
    match f with
    | [_, cid, ini, dur] => .unlock cid ini (clampDuration (parseDuration dur))
    | _ :: cid :: _ => .invalidUnlock cid
    | _ => .invalidUnlock []
  else if f.headD [] = Config.remoteLockText then
    match f with
    | [_, cid, ini] => .lock cid ini
    | _ => .invalidLock
  else .notACommand

/-- `CLASSIFY(Q)` (R141): tokens byte for byte, then commands. -/
def classify (c : Config) (Q : Bytes) : Classified :=
  if Q = c.tokenGrant.bytes then .grantToken
  else if Q = c.tokenDeny.bytes then .denyToken
  else parseCmd Q

end Sys2Proof.Machine
end

