-- ==== Sys2Proof/Machine/Functions.lean ====
section
/-! DEFINITION. The meanings of the pure operations (spec files 40, 41, 42 and 45_command_dispatcher R161 to R165,
44_exchange_fsm R141): each returns its value and touches no register, answer or call (10_state R32,
20_memory R44). -/

namespace Sys2Proof.Machine

/-- The outcome type of the block's meanings. -/
abbrev Out := Host.Outcome State Fault Refusal

/-- PACK_TV (R90). -/
def execPackTv (msgType version : Nibble) (s : State) : Out :=
  .next (returnValue (.byte (packTv msgType version)) s)

/-- PACK_FD (R91). -/
def execPackFd (flags deviceType : Nibble) (s : State) : Out :=
  .next (returnValue (.byte (packFd flags deviceType)) s)

/-- UNPACK_NIB (R92). -/
def execUnpackNib (b : Byte) (s : State) : Out :=
  .next (returnValue (.nibbles (unpackNib b).1 (unpackNib b).2) s)

/-- ENC (R93). -/
def execEnc (msgType deviceType : Nibble) (sequence : BitVec 16) (timestamp : BitVec 32) (payload : Bytes)
    (s : State) : Out :=
  .next (returnValue (.encResult (enc s.cfg msgType deviceType sequence timestamp payload)) s)

/-- DEC_UP (R95). -/
def execDecUp (buf : Bytes) (s : State) : Out := .next (returnValue (.upDecoded (decUp s.cfg buf)) s)

/-- DEC_DN (R96). -/
def execDecDn (buf : Bytes) (s : State) : Out := .next (returnValue (.dnDecoded (decDn s.cfg buf)) s)

/-- The condition `UP_RECEIVE` raises: `ChecksumMismatch`, and no other (60_exceptions R185, R189). -/
def upReceiveRaises : UpReceived → Option Diag
  | .checksumMismatch => some .checksumMismatch
  | .malformed _ => none
  | .frame _ => none

/-- UP_RECEIVE (R98). The condition it raises (R185) goes to its caller with the returned variant: a function of file
40 makes no environment call and is idempotent (20_memory R44; DEDUCED, log entry 12). -/
def execUpReceive (buf : Bytes) (s : State) : Out :=
  let r := upReceive s.cfg buf
  .next (returnValue (.upReceived r (upReceiveRaises r)) s)

/-- DN_RECEIVE (R99). -/
def execDnReceive (buf : Bytes) (s : State) : Out :=
  .next (returnValue (.dnReceived (dnReceive s.cfg buf)) s)

/-- CRC32 (R105). -/
def execCrc32 (data : Bytes) (s : State) : Out := .next (returnValue (.checksum (crc32 data)) s)

/-- CRC_APPEND (R107). -/
def execCrcAppend (frame : Bytes) (s : State) : Out := .next (returnValue (.bytes (crcAppend frame)) s)

/-- CRC_VERIFY (R108). -/
def execCrcVerify (data : Bytes) (checksum : BitVec 32) (s : State) : Out :=
  .next (returnValue (.bool (crcVerify data checksum)) s)

/-- XOR_TRANSFORM (R115). -/
def execXorTransform (payload key : Bytes) (s : State) : Out :=
  .next (returnValue (.bytes (xorTransform payload key)) s)

/-- CLASSIFY (R141). -/
def execClassify (payload : Bytes) (s : State) : Out :=
  .next (returnValue (.classified (classify s.cfg payload)) s)

/-- SPLIT (R161). -/
def execSplit (payload : Bytes) (s : State) : Out := .next (returnValue (.fields (split payload)) s)

/-- PARSE_CMD (R162). -/
def execParseCmd (payload : Bytes) (s : State) : Out :=
  .next (returnValue (.classified (parseCmd payload)) s)

/-- PARSE_DURATION (R163). -/
def execParseDuration (text : Bytes) (s : State) : Out :=
  .next (returnValue (.duration (parseDuration text)) s)

/-- CLAMP_DURATION (R165). -/
def execClampDuration (parsed : Option Nat) (s : State) : Out :=
  .next (returnValue (.natural (clampDuration parsed)) s)

end Sys2Proof.Machine
end

