-- ==== Sys2Proof/Machine/Uplink.lean ====
section
/-! DEFINITION. The Uplink Sender (spec 43_uplink_sender R122 to R128): TX_FRAME, the three senders and the
heartbeat; and the three uplink rows of the table, SCAN, STATUS and ACK, run as transmissions (log entry 6). -/

namespace Sys2Proof.Machine

/-- `(now div 1000) mod 2^32` (R123). -/
def timestampOf (now : Nat) : BitVec 32 := BitVec.ofNat 32 (now / 1000)

/-- Hands a built frame to the transport (R123): `SEQ` moves before the answer is known, whatever it is, and
`fail` raises `SendFailed(F[5..6])` and nothing else (R193). -/
def transmit (F : Bytes) (s : State) : State :=
  match send F { s with seq := s.seq + 1#16 } with
  | (.ok, s) => s
  | (.fail, s) => raise (.sendFailed (slice F 5 2)) s

/-- `TX_FRAME` (R123). Where `ENC` rejects, which the callers exclude, no bytes exist: nothing is sent and no
counter moves (R94; DEDUCED, log entry 10). -/
def txFrame (now : Nat) (msgType : Nibble) (payload : Bytes) (s : State) : State :=
  match enc s.cfg msgType s.cfg.deviceType s.seq (timestampOf now) payload with
  | .encodeRejected => s
  | .frame F => transmit F s

/-- `SEND_SCAN` (R124). -/
def sendScan (now : Nat) (id : Bytes) (s : State) : ScanSent × State :=
  if Config.idMax < id.length then (.rejected, raise (.encodeRejected id.length) s)
  else (.sent s.seq, txFrame now Config.mtScan id s)

/-- `SEND_STATUS` (R125). -/
def sendStatus (now : Nat) (text : Bytes) (s : State) : State := txFrame now Config.mtStatus text s

/-- The acknowledgment text `ACK:<command_id>:<0|1>:<status_text>` (R79, R126). -/
def ackText (cid : Bytes) (flag : Byte) (text : Bytes) : Bytes :=
  Config.ackHead ++ [Config.colon] ++ cid ++ [Config.colon, flag, Config.colon] ++ text

/-- `SEND_ACK` (R126). -/
def sendAck (now : Nat) (cid : Bytes) (flag : Byte) (text : Bytes) (s : State) : State :=
  txFrame now s.cfg.mtAck (ackText cid flag text) s

/-- `HEARTBEAT` (R128). -/
def heartbeat (now : Nat) (s : State) : State :=
  match s.cfg.heartbeatInterval with
  | none => s
  | some interval =>
    if interval ≤ now - s.hbLast then { sendStatus now s.cfg.heartbeatText s with hbLast := now } else s

/-- SCAN (R124, R85): a frame of type 1 with this payload is sent at the current clock sample. The block
stamps its own header fields, so the frame's are not used (R122; DESIGN CHOICE, log entry 6). -/
def execScan (_hdr : UpHeader) (payload : Bytes) (s : State) : Out := .next (sendScan s.clock payload s).2

/-- STATUS (R125, R85), as `execScan`. -/
def execStatus (_hdr : UpHeader) (payload : Bytes) (s : State) : Out := .next (sendStatus s.clock payload s)

/-- ACK (R126, R85): the payload is the acknowledgment text, sent in a frame of type `MT_ACK`. -/
def execAck (_hdr : UpHeader) (payload : Bytes) (s : State) : Out :=
  .next (txFrame s.clock s.cfg.mtAck payload s)

/-- TX_FRAME (R123). -/
def execTxFrame (now : Nat) (msgType : Nibble) (payload : Bytes) (s : State) : Out :=
  .next (txFrame now msgType payload s)

/-- SEND_SCAN (R124), with its result. -/
def execSendScan (now : Nat) (id : Bytes) (s : State) : Out :=
  .next (returnValue (.scanSent (sendScan now id s).1) (sendScan now id s).2)

/-- SEND_STATUS (R125). -/
def execSendStatus (now : Nat) (text : Bytes) (s : State) : Out := .next (sendStatus now text s)

/-- SEND_ACK (R126). -/
def execSendAck (now : Nat) (cid : Bytes) (flag : Byte) (text : Bytes) (s : State) : Out :=
  .next (sendAck now cid flag text s)

/-- HEARTBEAT (R128). -/
def execHeartbeat (now : Nat) (s : State) : Out := .next (heartbeat now s)

end Sys2Proof.Machine
end

