-- ==== Sys2Proof/Machine/Dispatcher.lean ====
section
/-! DEFINITION. The Remote Command Dispatcher (spec 45_command_dispatcher R166 to R172): the dispatch operations, and
the command rows of the table run at the current clock sample (log entry 18). -/

namespace Sys2Proof.Machine

/-- `REMOTE_UNLOCK` (R167): record, open, start the hold. The rest is `HOLD_FINISH`. -/
def remoteUnlock (now : Nat) (cid ini : Bytes) (d : Nat) (s : State) : State :=
  startHold .unlock (now + d) (act .openGate (setCommand .unlock cid ini d s))

/-- `REMOTE_LOCK` (R168): record, close, acknowledge, status, discard. -/
def remoteLock (now : Nat) (cid ini : Bytes) (s : State) : State :=
  let s := setCommand .lock cid ini 0 s
  let s := act .closeGate s
  let s := sendAck now cid Config.ackOk s.cfg.ackTextLock s
  let s := sendStatus now Config.statusClosed s
  cmdClear s

/-- `INVALID_UNLOCK` (R169): the condition, then the failure acknowledgment. -/
def invalidUnlock (now : Nat) (cid : Bytes) (s : State) : State :=
  let s := raise (.invalidCommandFormat .unlock) s
  sendAck now cid Config.ackFail s.cfg.ackTextInvalid s

/-- `INVALID_LOCK` (R171): the condition and nothing else. -/
def invalidLock (s : State) : State := raise (.invalidCommandFormat .lock) s

/-- REMOTE_UNLOCK (R167): field 3 is parsed by R163 and clamped by R165. -/
def execRemoteUnlock (cid ini dur : Bytes) (s : State) : Out :=
  .next (remoteUnlock s.clock cid ini (clampDuration (parseDuration dur)) s)

/-- REMOTE_LOCK (R168). -/
def execRemoteLock (cid ini : Bytes) (s : State) : Out := .next (remoteLock s.clock cid ini s)

/-- INVALID_UNLOCK (R169): acknowledged with field 1 if there was one, else the empty id (R162). -/
def execInvalidUnlock (fields : List Bytes) (s : State) : Out :=
  .next (invalidUnlock s.clock (fields.headD []) s)

/-- INVALID_LOCK (R171): whatever its fields, silently ignored on the wire. -/
def execInvalidLock (_fields : List Bytes) (s : State) : Out := .next (invalidLock s)

/-- CMD_CLEAR (R172). -/
def execCmdClear (s : State) : Out := .next (cmdClear s)

end Sys2Proof.Machine
end

