-- ==== Sys2Proof/Machine/Exchange.lean ====
section
/-! DEFINITION. The Downlink Receiver and the Exchange State Machine (spec 44_exchange_fsm R136 to R148): the
transitions, the hold, `RX_PROCESS` and the one step `LOOP_STEP`; and the token rows of the table. -/

namespace Sys2Proof.Machine

/-- `X_OPEN` (R138). -/
def xOpen (now : Nat) (id : Bytes) (s : State) : State :=
  match sendScan now id s with
  | (.rejected, s) => s
  | (.sent sequence, s) => openExchange now sequence s

/-- `X_GRANT` (R142): outcome, report, open, STATUS `open`, hold (90_conflicts C4). -/
def xGrant (now : Nat) (s : State) : State :=
  let s := resolve .granted .granted s
  let s := report .granted s
  let s := act .openGate s
  let s := sendStatus now Config.statusOpen s
  startHold .grant (now + s.cfg.grantHold) s

/-- `X_DENY` (R143). The clock sample is not used. -/
def xDeny (_now : Nat) (s : State) : State :=
  xClose (report .denied (resolve .denied .denied s))

/-- `X_TIMEOUT` (R144): the condition records `XSEQ` before the record is destroyed. -/
def xTimeout (_now : Nat) (s : State) : State :=
  let s := resolve .timedOut .timedOut s
  let s := raise (.exchangeTimeout s.xseq) s
  xClose (report .timedOut s)

/-- `HOLD_FINISH` (R146). -/
def holdFinish (now : Nat) (s : State) : State :=
  let s := act .closeGate s
  let s :=
    match s.holdCause with
    | .grant => xClose (sendStatus now Config.statusClosed s)
    | .unlock =>
      let s := sendAck now s.cmdId Config.ackOk s.cfg.ackTextUnlock s
      cmdClear (sendStatus now Config.statusClosed s)
  endHold s

/-- `HOLD_WAIT` (R147): changes nothing and makes no environment call. -/
def holdWait (_now : Nat) (s : State) : State := s

/-- A decision token (R140): it resolves an open exchange, else it is a stray decision (R148). -/
def onToken (d : Decision) (now : Nat) (s : State) : State :=
  if s.xstate = .awaitingDecision then
    match d with
    | .grant => xGrant now s
    | .deny => xDeny now s
  else raise (.strayDecision d) s

/-- The classification arms of `RX_PROCESS` (R140). -/
def rxPayload (now : Nat) (Q : Bytes) (s : State) : State :=
  match classify s.cfg Q with
  | .grantToken => onToken .grant now s
  | .denyToken => onToken .deny now s
  | .unlock cid ini d => remoteUnlock now cid ini d s
  | .lock cid ini => remoteLock now cid ini s
  | .invalidUnlock cid => invalidUnlock now cid s
  | .invalidLock => invalidLock s
  | .notACommand => raise (.unrecognizedToken Q.length) s

/-- `RX_PROCESS` (R140): one polled buffer is decoded, then acted on or discarded. -/
def rxProcess (now : Nat) (B : Bytes) (s : State) : State :=
  match dnReceive s.cfg B with
  | .malformed r => raise (.malformedFrame r) s
  | .checksumMismatch => raise .checksumMismatch s
  | .payload Q => rxPayload now Q s

/-- Branch H of `LOOP_STEP` (R136): a hold blocks the whole loop. -/
def stepHold (now : Nat) (s : State) : State :=
  if now < s.holdDeadline then holdWait now s else holdFinish now s

/-- Branch W of `LOOP_STEP` (R136, R139): the deadline first, then the paced poll. -/
def stepWait (now : Nat) (s : State) : State :=
  if s.xdeadline ≤ now then xTimeout now s
  else if now < s.nextPoll then s
  else
    match poll { s with nextPoll := now + s.cfg.pollInterval } with
    | (none, s) => s
    | (some B, s) => rxProcess now B s

/-- The transport and heartbeat part of branch I of `LOOP_STEP` (R136). -/
def idleTransport (now : Nat) (s : State) : State :=
  let s :=
    match poll s with
    | (some B, s) => rxProcess now B s
    | (none, s) => s
  if s.holdActive then s else heartbeat now s

/-- Branch I of `LOOP_STEP` (R136): sensor, then transport, then heartbeat. -/
def stepIdle (now : Nat) (s : State) : State :=
  match sensorPoll s with
  | (some id, s) => xOpen now id s
  | (none, s) => idleTransport now s

/-- `LOOP_STEP` (R136): hold before exchange before idle work. -/
def loopStep (now : Nat) (s : State) : State :=
  let s := sampleClock now s
  if s.holdActive then stepHold now s
  else if s.xstate = .awaitingDecision then stepWait now s
  else stepIdle now s

/-- GRANT (R142, R148), at the current clock sample. -/
def execGrant (s : State) : Out := .next (onToken .grant s.clock s)

/-- DENY (R143, R148), at the current clock sample. -/
def execDeny (s : State) : Out := .next (onToken .deny s.clock s)

/-- UNRECOGNIZED (R140, R190): the condition records the payload's length. -/
def execUnrecognized (payload : Bytes) (s : State) : Out :=
  .next (raise (.unrecognizedToken payload.length) s)

/-- LOOP_STEP (R136). -/
def execLoopStep (now : Nat) (s : State) : Out := .next (loopStep now s)

/-- X_OPEN (R138). -/
def execXOpen (now : Nat) (id : Bytes) (s : State) : Out := .next (xOpen now id s)

/-- RX_PROCESS (R140). -/
def execRxProcess (now : Nat) (buf : Bytes) (s : State) : Out := .next (rxProcess now buf s)

/-- X_GRANT (R142). -/
def execXGrant (now : Nat) (s : State) : Out := .next (xGrant now s)

/-- X_DENY (R143). -/
def execXDeny (now : Nat) (s : State) : Out := .next (xDeny now s)

/-- X_TIMEOUT (R144). -/
def execXTimeout (now : Nat) (s : State) : Out := .next (xTimeout now s)

/-- X_CLOSE (R145). -/
def execXClose (s : State) : Out := .next (xClose s)

/-- HOLD_FINISH (R146). -/
def execHoldFinish (now : Nat) (s : State) : Out := .next (holdFinish now s)

/-- HOLD_WAIT (R147). -/
def execHoldWait (now : Nat) (s : State) : Out := .next (holdWait now s)

end Sys2Proof.Machine
end

