-- ==== Sys2Proof/Machine/System.lean ====
section
/-! DEFINITION. RESET (spec 70_reset_and_hazards R210 to R212). -/

namespace Sys2Proof.Machine

/-- RESET (R210): every register takes its reset value and time restarts; the parameters are kept (R27). It
makes no environment call: what the environment offers, what has been called and what the host asks next are
outside the block (R211; log entry 15). -/
def execReset (s : State) : Out :=
  .next { State.resetWith s.cfg with
    sensorAnswers := s.sensorAnswers
    pollAnswers := s.pollAnswers
    sendAnswers := s.sendAnswers
    requests := s.requests
    calls := s.calls
    result := s.result }

end Sys2Proof.Machine
end

