-- ==== Sys2Proof/Machine/Dispatch.lean ====
section
/-! DEFINITION. One arm per constructor of `Instr`, in the order of spec/opcode_table.json. -/

namespace Sys2Proof.Machine

def exec (i : Instr) (s : State) : Host.Outcome State Fault Refusal :=
  match i with
  | .scan hdr payload => Sys2Proof.Machine.execScan hdr payload s
  | .status hdr payload => Sys2Proof.Machine.execStatus hdr payload s
  | .ack hdr payload => Sys2Proof.Machine.execAck hdr payload s
  | .grant => Sys2Proof.Machine.execGrant s
  | .deny => Sys2Proof.Machine.execDeny s
  | .remoteUnlock cid ini dur => Sys2Proof.Machine.execRemoteUnlock cid ini dur s
  | .remoteLock cid ini => Sys2Proof.Machine.execRemoteLock cid ini s
  | .invalidUnlock fields => Sys2Proof.Machine.execInvalidUnlock fields s
  | .invalidLock fields => Sys2Proof.Machine.execInvalidLock fields s
  | .unrecognized payload => Sys2Proof.Machine.execUnrecognized payload s
  | .packTv msgType version => Sys2Proof.Machine.execPackTv msgType version s
  | .packFd flags deviceType => Sys2Proof.Machine.execPackFd flags deviceType s
  | .unpackNib b => Sys2Proof.Machine.execUnpackNib b s
  | .enc msgType deviceType sequence timestamp payload => Sys2Proof.Machine.execEnc msgType deviceType sequence timestamp payload s
  | .decUp buf => Sys2Proof.Machine.execDecUp buf s
  | .decDn buf => Sys2Proof.Machine.execDecDn buf s
  | .upReceive buf => Sys2Proof.Machine.execUpReceive buf s
  | .dnReceive buf => Sys2Proof.Machine.execDnReceive buf s
  | .crc32 data => Sys2Proof.Machine.execCrc32 data s
  | .crcAppend frame => Sys2Proof.Machine.execCrcAppend frame s
  | .crcVerify data checksum => Sys2Proof.Machine.execCrcVerify data checksum s
  | .xorTransform payload key => Sys2Proof.Machine.execXorTransform payload key s
  | .txFrame now msgType payload => Sys2Proof.Machine.execTxFrame now msgType payload s
  | .sendScan now id => Sys2Proof.Machine.execSendScan now id s
  | .sendStatus now text => Sys2Proof.Machine.execSendStatus now text s
  | .sendAck now cid flag text => Sys2Proof.Machine.execSendAck now cid flag text s
  | .heartbeat now => Sys2Proof.Machine.execHeartbeat now s
  | .loopStep now => Sys2Proof.Machine.execLoopStep now s
  | .xOpen now id => Sys2Proof.Machine.execXOpen now id s
  | .rxProcess now buf => Sys2Proof.Machine.execRxProcess now buf s
  | .classify payload => Sys2Proof.Machine.execClassify payload s
  | .xGrant now => Sys2Proof.Machine.execXGrant now s
  | .xDeny now => Sys2Proof.Machine.execXDeny now s
  | .xTimeout now => Sys2Proof.Machine.execXTimeout now s
  | .xClose => Sys2Proof.Machine.execXClose s
  | .holdFinish now => Sys2Proof.Machine.execHoldFinish now s
  | .holdWait now => Sys2Proof.Machine.execHoldWait now s
  | .split payload => Sys2Proof.Machine.execSplit payload s
  | .parseCmd payload => Sys2Proof.Machine.execParseCmd payload s
  | .parseDuration text => Sys2Proof.Machine.execParseDuration text s
  | .clampDuration parsed => Sys2Proof.Machine.execClampDuration parsed s
  | .cmdClear => Sys2Proof.Machine.execCmdClear s
  | .reset => Sys2Proof.Machine.execReset s

end Sys2Proof.Machine
end

