-- ==== Sys2Proof/WellFormed.lean ====
section
/-! DEFINITION. When the operands of an instruction are ones the spec gives it: lengths that fit the length byte,
fields without the delimiter, and the operand conditions the rules state (spec 30_encoding R65, R68, R77 to R79;
41_integrity R107; 43_uplink_sender R123). -/

namespace Sys2Proof

/-- A text field cannot contain the delimiter `:` (R77, R223). -/
abbrev fieldOk (f : Bytes) : Prop := Config.colon ∉ f

/-- A payload fits the one length byte (R61, R68). -/
abbrev fitsLengthByte (p : Bytes) : Prop := p.length ≤ 255

/-- The payload begins with `ACK:`, as every acknowledgment text does, cut or not (R79, R170). It matters only
where `MT_ACK` is 6 and the type does not tell an acknowledgment from a status string (DEDUCED, log entry 7). -/
abbrev isAckText (p : Bytes) : Prop := p.take 4 = Config.ackHead ++ [Config.colon]

/-- The well-formedness of an instruction under a configuration. -/
abbrev Instr.wf (c : Config) : Instr → Prop
  | .scan _ payload => fitsLengthByte payload
  | .status _ payload => fitsLengthByte payload ∧ ¬ (c.mtAck = Config.mtStatus ∧ isAckText payload)
  | .ack _ payload => fitsLengthByte payload ∧ (c.mtAck = Config.mtStatus → isAckText payload)
  | .grant => True
  | .deny => True
  | .remoteUnlock cid ini dur =>
    fieldOk cid ∧ fieldOk ini ∧ fieldOk dur ∧
      fitsLengthByte (Machine.joinFields [Config.remoteUnlockText, cid, ini, dur])
  | .remoteLock cid ini =>
    fieldOk cid ∧ fieldOk ini ∧ fitsLengthByte (Machine.joinFields [Config.remoteLockText, cid, ini])
  | .invalidUnlock fields =>
    fields.length ≠ 3 ∧ (∀ f ∈ fields, fieldOk f) ∧
      fitsLengthByte (Machine.joinFields (Config.remoteUnlockText :: fields))
  | .invalidLock fields =>
    fields.length ≠ 2 ∧ (∀ f ∈ fields, fieldOk f) ∧
      fitsLengthByte (Machine.joinFields (Config.remoteLockText :: fields))
  | .unrecognized payload => fitsLengthByte payload ∧ Machine.classify c payload = .notACommand
  | .packTv _ _ => True
  | .packFd _ _ => True
  | .unpackNib _ => True
  | .enc _ _ _ _ _ => True
  | .decUp _ => True
  | .decDn _ => True
  | .upReceive _ => True
  | .dnReceive _ => True
  | .crc32 _ => True
  | .crcAppend frame => 12 ≤ frame.length
  | .crcVerify _ _ => True
  | .xorTransform _ _ => True
  | .txFrame _ msgType payload => msgType = Config.mtScan → payload.length ≤ Config.idMax
  | .sendScan _ _ => True
  | .sendStatus _ _ => True
  | .sendAck _ _ flag _ => flag = Config.ackOk ∨ flag = Config.ackFail
  | .heartbeat _ => True
  | .loopStep _ => True
  | .xOpen _ _ => True
  | .rxProcess _ _ => True
  | .classify _ => True
  | .xGrant _ => True
  | .xDeny _ => True
  | .xTimeout _ => True
  | .xClose => True
  | .holdFinish _ => True
  | .holdWait _ => True
  | .split _ => True
  | .parseCmd _ => True
  | .parseDuration _ => True
  | .clampDuration _ => True
  | .cmdClear => True
  | .reset => True

end Sys2Proof
end

