-- ==== Sys2Proof/Decode.lean ====
section
/-! DEFINITION. Decoding a whole received or sent frame into the instruction its table row names, total on any bytes
and rejecting by name, and the encoder (spec 30_encoding R60 to R85). A frame's first three bytes tell its format
(R60). The `FUNC` rows have no bit pattern (R85), so no bytes decode to one and `encode` answers `none` for them. -/

namespace Sys2Proof

/-- Why bytes are no instruction. -/
inductive DecodeReject where
  /-- The structural decoder's reason (R188). -/
  | malformed (r : MalformedReason)
  /-- The checksum field disagrees (R108). -/
  | checksumMismatch
  /-- An uplink frame with a `msg_type` that is not 1, 6 or `MT_ACK`: no table row (R82 a). -/
  | unassignedMsgType (msgType : Nibble)
deriving DecidableEq, Repr

/-- The outcome of decoding. -/
inductive Decoded where
  | instr (i : Instr)
  | rejected (r : DecodeReject)
deriving DecidableEq, Repr

/-- The header operands of an uplink instruction, from a decoded frame (R61). -/
def headerOf (fr : UpFrame) : UpHeader where
  version := fr.version
  flags := fr.flags
  deviceType := fr.deviceType
  sequence := fr.sequence
  timestamp := fr.timestamp

/-- The table row of an uplink frame whose payload has been de-obfuscated, by `msg_type` alone (R72, R85). Only
with `MT_ACK = 6`, where one type is two rows, is an acknowledgment told from a status string by its text (R79;
DEDUCED, log entry 7). -/
def decodeUpRow (c : Config) (fr : UpFrame) : Decoded :=
  if fr.msgType = Config.mtScan then .instr (.scan (headerOf fr) fr.payload)
  else if fr.msgType = c.mtAck ∧ (c.mtAck = Config.mtStatus → isAckText fr.payload) then
    .instr (.ack (headerOf fr) fr.payload)
  else if fr.msgType = Config.mtStatus then .instr (.status (headerOf fr) fr.payload)
  else .rejected (.unassignedMsgType fr.msgType)

/-- Decoding an uplink frame: `UP_RECEIVE` (R98), then the row. -/
def decodeUpFrame (c : Config) (B : Bytes) : Decoded :=
  match Machine.upReceive c B with
  | .malformed r => .rejected (.malformed r)
  | .checksumMismatch => .rejected .checksumMismatch
  | .frame fr => decodeUpRow c fr

/-- The table row of a de-obfuscated downlink payload, tested in the order of R85: grant, deny, unlock (valid
with exactly 3 delimiters), lock (valid with exactly 2), anything else. -/
def decodeText (c : Config) (Q : Bytes) : Instr :=
  if Q = c.tokenGrant.bytes then .grant
  else if Q = c.tokenDeny.bytes then .deny
  else
    match Machine.split Q with
    | [] => .unrecognized Q
    | kind :: fields =>
      if kind = Config.remoteUnlockText then
        match fields with
        | [cid, ini, dur] => .remoteUnlock cid ini dur
        | _ => .invalidUnlock fields
      else if kind = Config.remoteLockText then
        match fields with
        | [cid, ini] => .remoteLock cid ini
        | _ => .invalidLock fields
      else .unrecognized Q

/-- Decoding a downlink frame: `DN_RECEIVE` (R99), then the row. -/
def decodeDnFrame (c : Config) (B : Bytes) : Decoded :=
  match Machine.dnReceive c B with
  | .malformed r => .rejected (.malformed r)
  | .checksumMismatch => .rejected .checksumMismatch
  | .payload Q => .instr (decodeText c Q)

/-- The decoder: `DN` frames begin with `RX_PREFIX`; everything else is read as `UP` (R60). -/
def decode (c : Config) (B : Bytes) : Decoded :=
  if B.take 3 = c.rxPrefix.bytes then decodeDnFrame c B else decodeUpFrame c B

/-- An uplink frame with given header fields and payload (R61, R67): obfuscated payload, then checksum. -/
def encodeUp (c : Config) (msgType : Nibble) (h : UpHeader) (payload : Bytes) : Bytes :=
  Machine.crcAppend
    (Machine.upBody c msgType h.version h.flags h.deviceType h.sequence h.timestamp (Machine.stageOf c payload))

/-- A downlink frame with payload `Q` (R68, R70). Bytes 3 and 4 are not described by the spec (R71); the
encoder writes 00 00 there, as the spec's vectors do (DESIGN CHOICE, log entry 9). -/
def encodeDn (c : Config) (Q : Bytes) : Bytes :=
  let body := c.rxPrefix.bytes ++ [0x00#8, 0x00#8, c.rxChannel, BitVec.ofNat 8 (Machine.stageOf c Q).length] ++
    Machine.stageOf c Q
  if c.dnCrc then Machine.crcAppend body else body

/-- The bytes of an instruction, or `none` for the operations without a wire encoding (R85). -/
def encode (c : Config) : Instr → Option Bytes
  | .scan h payload => some (encodeUp c Config.mtScan h payload)
  | .status h payload => some (encodeUp c Config.mtStatus h payload)
  | .ack h payload => some (encodeUp c c.mtAck h payload)
  | .grant => some (encodeDn c c.tokenGrant.bytes)
  | .deny => some (encodeDn c c.tokenDeny.bytes)
  | .remoteUnlock cid ini dur =>
    some (encodeDn c (Machine.joinFields [Config.remoteUnlockText, cid, ini, dur]))
  | .remoteLock cid ini => some (encodeDn c (Machine.joinFields [Config.remoteLockText, cid, ini]))
  | .invalidUnlock fields => some (encodeDn c (Machine.joinFields (Config.remoteUnlockText :: fields)))
  | .invalidLock fields => some (encodeDn c (Machine.joinFields (Config.remoteLockText :: fields)))
  | .unrecognized payload => some (encodeDn c payload)
  | .packTv _ _ => none
  | .packFd _ _ => none
  | .unpackNib _ => none
  | .enc _ _ _ _ _ => none
  | .decUp _ => none
  | .decDn _ => none
  | .upReceive _ => none
  | .dnReceive _ => none
  | .crc32 _ => none
  | .crcAppend _ => none
  | .crcVerify _ _ => none
  | .xorTransform _ _ => none
  | .txFrame _ _ _ => none
  | .sendScan _ _ => none
  | .sendStatus _ _ => none
  | .sendAck _ _ _ _ => none
  | .heartbeat _ => none
  | .loopStep _ => none
  | .xOpen _ _ => none
  | .rxProcess _ _ => none
  | .classify _ => none
  | .xGrant _ => none
  | .xDeny _ => none
  | .xTimeout _ => none
  | .xClose => none
  | .holdFinish _ => none
  | .holdWait _ => none
  | .split _ => none
  | .parseCmd _ => none
  | .parseDuration _ => none
  | .clampDuration _ => none
  | .cmdClear => none
  | .reset => none

/-- The `n` bytes of the number `w`, byte 0 first and least significant. -/
def bytesOfWord : Nat → Nat → Bytes
  | 0, _ => []
  | n + 1, w => BitVec.ofNat 8 w :: bytesOfWord n (w / 256)

/-- The instruction the decoder reads from the `nbits / 8` bytes of `w`, under CFG_REF: the table's bit
patterns have numbers only there (log entry 22). -/
def decodeTableWord (nbits w : Nat) : Option Instr :=
  match decode Config.ref (bytesOfWord (nbits / 8) w) with
  | .instr i => some i
  | .rejected _ => none

end Sys2Proof
end

