-- ==== Sys2Proof/Machine/Placement.lean ====
section
/-! DEFINITION. How a row with a wire encoding comes to run (log entry 4). Nothing is fetched at a program counter
(spec 10_state R19): a downlink row runs when LOOP_STEP polls its frame (44_exchange_fsm R136, R140), an uplink row when
LOOP_STEP has cause to send it (43_uplink_sender R124 to R128). Each definition here makes the next LOOP_STEP do so. -/

namespace Sys2Proof.Machine

/-- No hold, and the next poll answers `F`: an open exchange is due for a poll before its deadline, and else the
sensor answers nothing first (R136). -/
def pollNext (F : Bytes) (s : State) : State :=
  if s.xstate = .awaitingDecision then
    { s with
      holdActive := false
      nextPoll := min s.nextPoll s.clock
      xdeadline := max s.xdeadline (s.clock + 1)
      pollAnswers := some F :: s.pollAnswers }
  else
    { s with
      holdActive := false
      sensorAnswers := none :: s.sensorAnswers
      pollAnswers := some F :: s.pollAnswers }

/-- An idle block, which the sensor gives the identifier `id`: the next step sends its SCAN (R138, R124). -/
def scanNext (id : Bytes) (s : State) : State :=
  { s with
    holdActive := false
    xstate := .idle
    sensorAnswers := some id :: s.sensorAnswers }

/-- An idle block strapped to the heartbeat text `text`, with the heartbeat due and nothing to sense or to receive:
the next step sends the STATUS (R128, R125). A heartbeat is the one STATUS with a free text. -/
def statusNext (text : Bytes) (s : State) : State :=
  { s with
    holdActive := false
    xstate := .idle
    cfg := { s.cfg with heartbeatInterval := some 1, heartbeatText := text }
    clock := max s.clock (s.hbLast + 1)
    sensorAnswers := none :: s.sensorAnswers
    pollAnswers := none :: s.pollAnswers }

/-- The command and the straps that make the block send the acknowledgment `text` (R79): a success acknowledges a
lock command with the same `command_id` (R168), a failure an unlock command with a wrong field count (R169). Of a
text cut to 16 bytes only those are told apart (R170). -/
def ackNext (text : Bytes) (s : State) : State :=
  match split (text.take Config.textMax) with
  | _ :: cid :: flag :: rest =>
    if flag = [Config.ackFail] then
      pollNext (encodeDn s.cfg (joinFields [Config.remoteUnlockText, cid]))
        { s with cfg := { s.cfg with ackTextInvalid := joinFields rest } }
    else
      pollNext (encodeDn s.cfg (joinFields [Config.remoteLockText, cid, []]))
        { s with cfg := { s.cfg with ackTextLock := joinFields rest } }
  | _ :: cid :: [] => pollNext (encodeDn s.cfg (joinFields [Config.remoteUnlockText, cid])) s
  | _ => pollNext text s

/-- The next LOOP_STEP runs the row `i` whose frame is `F`. A `FUNC` row has no frame (30_encoding R85). -/
def placeRow (i : Instr) (F : Bytes) (s : State) : State :=
  match i with
  | .scan _ payload => scanNext payload s
  | .status _ payload => statusNext payload s
  | .ack _ payload => ackNext payload s
  | _ => pollNext F s

/-- The next LOOP_STEP runs the row that the bytes `F` are; bytes that are no row are received, and discarded. -/
def placeFrame (F : Bytes) (s : State) : State :=
  match decode s.cfg F with
  | .instr i => placeRow i F s
  | .rejected _ => pollNext F s

end Sys2Proof.Machine
end

