-- ==== Sys2Proof/Machine/Step.lean ====
section
/-! DEFINITION. One step of the machine: the host's next request, or, when it asks nothing, one more iteration of the
control loop (spec 60_exceptions R207, 44_exchange_fsm R136, 70_reset R214). -/

namespace Sys2Proof.Machine

/-- A step. With nothing asked the control loop runs for ever (R214), at the last clock sample (log entry 3). The
host can ask for RESET, LOOP_STEP and pure functions only (10_state R15; log entry 24): a frame acts on the block when LOOP_STEP
polls it. The bus-structured command form is refused by name (R5). -/
def step (s : State) : Host.Outcome State Fault Refusal :=
  match s.requests with
  | [] => exec (.loopStep s.clock) s
  | .call i _ :: rest => exec i { s with requests := rest }
  | .busCommand _ :: _ => .refused .busCommandForm

/-- The state whose next step is a LOOP_STEP that runs the row of the `nbits / 8` bytes of `w` (log entry 4). A
frame's length is its buffer's (R83), so no bytes are added above `nbits`. -/
def State.withFetchWord (s : State) (nbits w : Nat) : State :=
  let t := placeFrame (bytesOfWord (nbits / 8) w) s
  { t with requests := .call (.loopStep t.clock) rfl :: s.requests }

end Sys2Proof.Machine
end

