-- ==== Sys2Proof/Machine/Codes.lean ====
section
/-! DEFINITION. The bit patterns and numbers the spec assigns to its enumerations: 10_state R31 (decision D31) and
the condition codes of 60_exceptions R185 (decision D29). "No rule depends on these numbers". -/

namespace Sys2Proof.Machine

/-- `XSTATE`, 3 bits; 6 and 7 are never written (R31). -/
def XState.code : XState → BitVec 3
  | .idle => 0#3
  | .scanSent => 1#3
  | .awaitingDecision => 2#3
  | .granted => 3#3
  | .denied => 4#3
  | .timedOut => 5#3

/-- `XOUTCOME`, 2 bits (R31). -/
def XOutcome.code : XOutcome → BitVec 2
  | .pending => 0#2
  | .granted => 1#2
  | .denied => 2#2
  | .timedOut => 3#2

/-- `HOLD_CAUSE`, 1 bit (R31). -/
def HoldCause.code : HoldCause → BitVec 1
  | .grant => 0#1
  | .unlock => 1#1

/-- `CMD_KIND`, 1 bit (R31). -/
def CmdKind.code : CmdKind → BitVec 1
  | .unlock => 0#1
  | .lock => 1#1

/-- The numeric code of a condition (R185). -/
def Diag.code : Diag → Nat
  | .malformedFrame _ => 1
  | .checksumMismatch => 2
  | .unrecognizedToken _ => 3
  | .exchangeTimeout _ => 4
  | .invalidCommandFormat _ => 5
  | .sendFailed _ => 6
  | .encodeRejected _ => 7
  | .strayDecision _ => 8

end Sys2Proof.Machine
end

