-- ==== Sys2Proof/Safety.lean ====
section
/-! DEFINITION. What statements call a safe state and a legal use: the invariants of spec 10_state R26 with the
record rules R21, R23 and R24, and vocabulary about output calls. -/

namespace Sys2Proof.Machine

/-- R26 (a), R18: only three values are held between two steps. -/
abbrev State.restState (s : State) : Prop :=
  s.xstate = .idle ∨ s.xstate = .awaitingDecision ∨ s.xstate = .granted

/-- R26 (b). -/
abbrev State.grantHoldExact (s : State) : Prop :=
  s.xstate = .granted ↔ s.holdActive = true ∧ s.holdCause = .grant

/-- R26 (c). -/
abbrev State.commandHoldExact (s : State) : Prop :=
  (s.cmdValid = true ↔ s.holdActive = true ∧ s.holdCause = .unlock) ∧
    (s.cmdValid = true → s.cmdKind = .unlock ∧ 1000 ≤ s.cmdDuration ∧ s.cmdDuration ≤ 30000)

/-- R26 (d). -/
abbrev State.idleRecord (s : State) : Prop :=
  s.xstate = .idle → s.xseq = 0#16 ∧ s.xdeadline = 0 ∧ s.xoutcome = .pending

/-- R26 (e). -/
abbrev State.openOutcome (s : State) : Prop :=
  (s.xstate = .awaitingDecision → s.xoutcome = .pending) ∧ (s.xstate = .granted → s.xoutcome = .granted)

/-- R24: "When `CMD_VALID` returns to 0 the other four return to their reset values", and the lengths of R16. -/
abbrev State.commandRecord (s : State) : Prop :=
  (s.cmdValid = false → s.cmdKind = .unlock ∧ s.cmdId = [] ∧ s.cmdInitiator = [] ∧ s.cmdDuration = 0) ∧
    s.cmdId.length ≤ 255 ∧ s.cmdInitiator.length ≤ 255

/-- R146: outside a hold `HOLD_CAUSE` and `HOLD_DEADLINE` stand at their reset values. -/
abbrev State.holdRecord (s : State) : Prop :=
  s.holdActive = false → s.holdCause = .grant ∧ s.holdDeadline = 0

/-- The invariant of the block at a step boundary: R26 (a) to (e) and the record rules. R26 (f) is the shape of
State: one exchange record and one command record. -/
structure State.Inv (s : State) : Prop where
  rest : s.restState
  grantHold : s.grantHoldExact
  commandHold : s.commandHoldExact
  idleRecord : s.idleRecord
  openOutcome : s.openOutcome
  commandRecord : s.commandRecord
  holdRecord : s.holdRecord

/-! Which rows write which record, directly or through an operation they call: the table of 10_state R32, closed
under calls. The wire rows stand for the operations they run. -/

/-- Writers of `SEQ`. -/
def writesSeq : Instr → Bool
  | .scan _ _ | .status _ _ | .ack _ _ | .grant | .remoteLock _ _ | .invalidUnlock _ | .txFrame _ _ _
  | .sendScan _ _ | .sendStatus _ _ | .sendAck _ _ _ _ | .heartbeat _ | .loopStep _ | .xOpen _ _
  | .rxProcess _ _ | .xGrant _ | .holdFinish _ | .reset => true
  | _ => false

/-- Writers of `XSTATE`, `XSEQ`, `XDEADLINE`, `XOUTCOME`, `NEXT_POLL`. -/
def writesExchange : Instr → Bool
  | .grant | .deny | .loopStep _ | .xOpen _ _ | .rxProcess _ _ | .xGrant _ | .xDeny _ | .xTimeout _ | .xClose
  | .holdFinish _ | .reset => true
  | _ => false

/-- Writers of `HOLD_ACTIVE`, `HOLD_CAUSE`, `HOLD_DEADLINE`. -/
def writesHold : Instr → Bool
  | .grant | .remoteUnlock _ _ _ | .loopStep _ | .rxProcess _ _ | .xGrant _ | .holdFinish _ | .reset => true
  | _ => false

/-- Writers of `CMD_VALID`, `CMD_KIND`, `CMD_ID`, `CMD_INITIATOR`, `CMD_DURATION`. -/
def writesCommand : Instr → Bool
  | .remoteUnlock _ _ _ | .remoteLock _ _ | .loopStep _ | .rxProcess _ _ | .holdFinish _ | .cmdClear
  | .reset => true
  | _ => false

/-- Writers of `HB_LAST`. -/
def writesHeartbeat : Instr → Bool
  | .heartbeat _ | .loopStep _ | .reset => true
  | _ => false

/-- The frames a list of calls hands to the transport, in order. -/
def framesOf : List EnvCall → List Bytes
  | [] => []
  | .send F :: rest => F :: framesOf rest
  | .act _ :: rest => framesOf rest
  | .report _ :: rest => framesOf rest
  | .diag _ :: rest => framesOf rest

/-- The outcomes a list of calls reports, in order. -/
def reportsOf : List EnvCall → List XOutcome
  | [] => []
  | .report o :: rest => o :: reportsOf rest
  | .send _ :: rest => reportsOf rest
  | .act _ :: rest => reportsOf rest
  | .diag _ :: rest => reportsOf rest

/-- The actuations of a list of calls, in order. -/
def actsOf : List EnvCall → List Actuation
  | [] => []
  | .act a :: rest => a :: actsOf rest
  | .send _ :: rest => actsOf rest
  | .report _ :: rest => actsOf rest
  | .diag _ :: rest => actsOf rest

/-- The calls `t` has made beyond those of `s`. -/
def newCalls (s t : State) : List EnvCall := t.calls.drop s.calls.length

/-- What one `send(F)` adds to the calls (R123): the frame, then `SendFailed(F[5..6])` if the transport refuses. -/
def sendCalls (s : State) (F : Bytes) : List EnvCall :=
  .send F :: (if s.sendAnswers.headD .ok = .fail then [.diag (.sendFailed (slice F 5 2))] else [])

/-- The state after one `send(F)` (R123, R193): `SEQ` moved, one answer used, the calls made; nothing else. -/
def afterSend (s : State) (F : Bytes) : State :=
  { s with seq := s.seq + 1#16, sendAnswers := s.sendAnswers.tail, calls := s.calls ++ sendCalls s F }

/-- The frame the block builds for a type and payload at a clock sample (R123); empty where `ENC` rejects. -/
def builtFrame (s : State) (now : Nat) (msgType : Nibble) (payload : Bytes) : Bytes :=
  match enc s.cfg msgType s.cfg.deviceType s.seq (timestampOf now) payload with
  | .frame F => F
  | .encodeRejected => []

/-- An uplink frame as the block may send it (R122): type SCAN, STATUS or `MT_ACK`, the block's `VERSION`,
`FLAGS_TX` and `DEVICE_TYPE`, the timestamp of the clock sample, and a checksum that verifies. -/
def sentFrameOk (c : Config) (now : Nat) (F : Bytes) : Prop :=
  ∃ fr, upReceive c F = .frame fr ∧
    (fr.msgType = Config.mtScan ∨ fr.msgType = Config.mtStatus ∨ fr.msgType = c.mtAck) ∧
    fr.version = c.version ∧ fr.flags = Config.flagsTx ∧ fr.deviceType = c.deviceType ∧
    fr.timestamp = timestampOf now

/-- The states of a run of `LOOP_STEP` at the given clock samples, the last one. -/
def loopRun (s : State) : List Nat → State
  | [] => s
  | now :: rest => loopRun (loopStep now s) rest

end Sys2Proof.Machine
end

