-- ==== Sys2Proof/Certificates/Slice0/Obligations.lean ====
section
/-! DEFINITION. The statements for the provers, from the numbered rules of spec/. -/

open Sys2Proof Sys2Proof.Machine

/-! ## Frame Codec -/

/-- R90, R91, R92. The packed byte is the concatenation of its two nibbles, and unpacking inverts packing. -/
def Obligations.NibblesPackAndUnpack : Prop :=
  ∀ (t v : Nibble) (b : Byte) (s : State),
    exec (.packTv t v) s = .next { s with result := some (.byte (t ++ v : BitVec (4 + 4))) } ∧
    exec (.packFd t v) s = .next { s with result := some (.byte (t ++ v : BitVec (4 + 4))) } ∧
    exec (.unpackNib b) s =
      .next { s with result := some (.nibbles (b.extractLsb' 4 4) (b.extractLsb' 0 4)) } ∧
    unpackNib (packTv t v) = (t, v) ∧ packTv (unpackNib b).1 (unpackNib b).2 = b ∧
    unpackNib (packFd t v) = (t, v) ∧ packFd (unpackNib b).1 (unpackNib b).2 = b

/-- R93. What `ENC` returns, for both payload classes. -/
def Obligations.EncBuildsFrameByClass : Prop :=
  ∀ (t d : Nibble) (q : BitVec 16) (ts : BitVec 32) (p : Bytes) (s : State),
    let G (P : Bytes) : Bytes :=
      s.cfg.magic.bytes ++ [(t ++ s.cfg.version : BitVec (4 + 4)), (0#4 ++ d : BitVec (4 + 4))] ++
        [q.extractLsb' 0 8, q.extractLsb' 8 8] ++
        [ts.extractLsb' 0 8, ts.extractLsb' 8 8, ts.extractLsb' 16 8, ts.extractLsb' 24 8] ++
        [BitVec.ofNat 8 P.length] ++ xorTransform P s.cfg.key
    let whole (P : Bytes) : EncResult := .frame (G P ++ le32 (Machine.crc32 ((G P).drop 3)))
    exec (.enc t d q ts p) s = .next { s with result := some (.encResult
      (if t = 1#4 then (if 10 < p.length then .encodeRejected else whole p) else whole (p.take 16))) }

/-- R94. Shape of every frame `ENC` builds, for any length-preserving obfuscation stage. -/
def Obligations.EncodedFrameShape : Prop :=
  ∀ (stage : Stage) (c : Config) (t d : Nibble) (q : BitVec 16) (ts : BitVec 32) (p F : Bytes),
    (∀ P, (stage P).length = P.length) → encWith stage c t d q ts p = .frame F →
    ∃ P, classPayload t p = some P ∧ P.length ≤ 16 ∧ F.length = 16 + P.length ∧
      (memRead1 F 11).toNat = P.length ∧ F.take 3 = c.magic.bytes

/-- R95. `DEC_UP`: the three tests in order, then the fields at their offsets. -/
def Obligations.DecUpTestsThenFields : Prop :=
  ∀ (B : Bytes) (s : State), ∃ r, exec (.decUp B) s = .next { s with result := some (.upDecoded r) } ∧
    (B.length < 16 → r = .malformed .tooShort) ∧
    (16 ≤ B.length → B.take 3 ≠ s.cfg.magic.bytes → r = .malformed .badHeader) ∧
    (16 ≤ B.length → B.take 3 = s.cfg.magic.bytes → 16 + (memRead1 B 11).toNat ≠ B.length →
      r = .malformed .lengthMismatch) ∧
    (16 ≤ B.length → B.take 3 = s.cfg.magic.bytes → 16 + (memRead1 B 11).toNat = B.length →
      ∃ W, W.length = (memRead1 B 11).toNat ∧ W = (B.drop 12).take W.length ∧
        r = .frame { msgType := (memRead1 B 3).extractLsb' 4 4, version := (memRead1 B 3).extractLsb' 0 4,
                     flags := (memRead1 B 4).extractLsb' 4 4, deviceType := (memRead1 B 4).extractLsb' 0 4,
                     sequence := memRead1 B 6 ++ memRead1 B 5,
                     timestamp := memRead1 B 10 ++ memRead1 B 9 ++ memRead1 B 8 ++ memRead1 B 7,
                     payloadLength := W.length, payload := W, checksum := memRead4 B (12 + W.length) })

/-- R96, R188. `DEC_DN`: the four tests in order, then the fields; bytes 3 and 4 play no part (R71). -/
def Obligations.DecDnTestsThenFields : Prop :=
  ∀ (B : Bytes) (s : State), ∃ r, exec (.decDn B) s = .next { s with result := some (.dnDecoded r) } ∧
    (let T := if s.cfg.dnCrc then 4 else 0
     let L := (memRead1 B 6).toNat
     (B.length < 7 + T → r = .malformed .tooShort) ∧
     (7 + T ≤ B.length → B.take 3 ≠ s.cfg.rxPrefix.bytes → r = .malformed .badHeader) ∧
     (7 + T ≤ B.length → B.take 3 = s.cfg.rxPrefix.bytes → memRead1 B 5 ≠ s.cfg.rxChannel →
       r = .malformed .badChannel) ∧
     (7 + T ≤ B.length → B.take 3 = s.cfg.rxPrefix.bytes → memRead1 B 5 = s.cfg.rxChannel →
       7 + L + T ≠ B.length → r = .malformed .lengthMismatch) ∧
     (7 + T ≤ B.length → B.take 3 = s.cfg.rxPrefix.bytes → memRead1 B 5 = s.cfg.rxChannel →
       7 + L + T = B.length →
       r = .frame { payloadLength := L, payload := (B.drop 7).take L,
                    trailer := if s.cfg.dnCrc then some (memRead4 B (7 + L)) else none }))

/-- R101. A declared length that disagrees with the buffer's is rejected, on both formats. -/
def Obligations.WrongLengthIsRejected : Prop :=
  (∀ (c : Config) (B : Bytes), 7 ≤ B.length → B.take 3 = c.rxPrefix.bytes → memRead1 B 5 = c.rxChannel →
    c.dnCrc = false → 7 + (memRead1 B 6).toNat ≠ B.length → Machine.decDn c B = .malformed .lengthMismatch) ∧
  (∀ (c : Config) (B : Bytes), 16 ≤ B.length → B.take 3 = c.magic.bytes →
    16 + (memRead1 B 11).toNat ≠ B.length → Machine.decUp c B = .malformed .lengthMismatch)

/-- R71. Bytes 3 and 4 of a downlink frame are neither tested nor delivered; with the default `DN_CRC` nothing
the receiver does depends on them. -/
def Obligations.DownlinkBytes3And4Ignored : Prop :=
  ∀ (c : Config) (B : Bytes) (x y : Byte),
    Machine.decDn c ((B.set 3 x).set 4 y) = Machine.decDn c B ∧
    (c.dnCrc = false → Machine.dnReceive c ((B.set 3 x).set 4 y) = Machine.dnReceive c B)

/-- R98, R99. The receive pipelines: structure, checksum, then the obfuscation undone. Which condition `UP_RECEIVE`
raises beside is in PureOperationsTouchNoState. -/
def Obligations.ReceivePipelines : Prop :=
  ∀ (B : Bytes) (s : State),
    (∃ raised, exec (.upReceive B) s = .next { s with result := some (.upReceived
      (match Machine.decUp s.cfg B with
       | .malformed r => .malformed r
       | .frame fr =>
         if Machine.crc32 ((B.drop 3).take (9 + fr.payloadLength)) = fr.checksum
         then .frame { fr with payload := Machine.xorTransform fr.payload s.cfg.key }
         else .checksumMismatch) raised) }) ∧
    exec (.dnReceive B) s = .next { s with result := some (.dnReceived
      (match Machine.decDn s.cfg B with
       | .malformed r => .malformed r
       | .frame fr =>
         if s.cfg.dnCrc = true ∧
             Machine.crc32 ((B.drop 3).take (4 + fr.payloadLength)) ≠ memRead4 B (7 + fr.payloadLength)
         then .checksumMismatch
         else .payload (Machine.xorTransform fr.payload s.cfg.key))) }

/-- R100. Round trip of the uplink codec: every field comes back, and `DEC_UP` alone gives the wire payload. -/
def Obligations.UplinkRoundTrip : Prop :=
  ∀ (c : Config) (t d : Nibble) (q : BitVec 16) (ts : BitVec 32) (p : Bytes),
    (t = Config.mtScan → p.length ≤ 10) → (t ≠ Config.mtScan → p.length ≤ 16) →
    ∃ F G ck, Machine.enc c t d q ts p = .frame F ∧ F = G ++ le32 ck ∧
      Machine.upReceive c F = .frame
        { msgType := t, version := c.version, flags := Config.flagsTx, deviceType := d, sequence := q,
          timestamp := ts, payloadLength := p.length, payload := p, checksum := ck } ∧
      Machine.decUp c F = .frame
        { msgType := t, version := c.version, flags := Config.flagsTx, deviceType := d, sequence := q,
          timestamp := ts, payloadLength := p.length, payload := Machine.xorTransform p c.key, checksum := ck }

/-- R94, R118. The same round trip for any stage with the two laws a stage must have. -/
def Obligations.RoundTripForAnyStage : Prop :=
  ∀ (stage : Stage) (c : Config) (t d : Nibble) (q : BitVec 16) (ts : BitVec 32) (p : Bytes),
    (∀ P, (stage P).length = P.length) → (∀ P, stage (stage P) = P) →
    (t = Config.mtScan → p.length ≤ 10) → (t ≠ Config.mtScan → p.length ≤ 16) →
    ∃ F ck, encWith stage c t d q ts p = .frame F ∧
      upReceiveWith stage c F = .frame
        { msgType := t, version := c.version, flags := Config.flagsTx, deviceType := d, sequence := q,
          timestamp := ts, payloadLength := p.length, payload := p, checksum := ck }

/-- R41, R42. The little-endian buffer accessors: what is written is read back, and every byte outside the
written ones reads as before. -/
def Obligations.BufferReadAfterWrite : Prop :=
  ∀ (B : Bytes) (o : Nat) (v1 : Byte) (v2 : BitVec 16) (v4 : BitVec 32), o ≤ B.length →
    memRead1 (memWrite1 B o v1) o = v1 ∧ memRead2 (memWrite2 B o v2) o = v2 ∧
    memRead4 (memWrite4 B o v4) o = v4 ∧
    memRead1 (memWrite2 B o v2) o = v2.extractLsb' 0 8 ∧ memRead1 (memWrite4 B o v4) o = v4.extractLsb' 0 8 ∧
    ∀ a, (a ≠ o → memRead1 (memWrite1 B o v1) a = memRead1 B a) ∧
      (a < o ∨ o + 2 ≤ a → memRead1 (memWrite2 B o v2) a = memRead1 B a) ∧
      (a < o ∨ o + 4 ≤ a → memRead1 (memWrite4 B o v4) a = memRead1 B a)

/-! ## Integrity Stage and Obfuscation Stage -/

/-- R105. The checksum as the fold its five parameters describe. -/
def Obligations.Crc32IsTheBitSerialFold : Prop :=
  ∀ (D : Bytes) (s : State),
    exec (.crc32 D) s = .next { s with result := some (.checksum
      (D.foldl (fun (crc : BitVec 32) (b : Byte) => (List.range 8).foldl
          (fun (x : BitVec 32) _ => if x.getLsbD 31 then (x <<< 1) ^^^ 0x04C11DB7#32 else x <<< 1)
          (crc ^^^ (b.setWidth 32 <<< 24))) 0xFFFFFFFF#32 ^^^ 0xFFFFFFFF#32)) }

/-- R106 (b). Changing any single covered byte changes the checksum. -/
def Obligations.Crc32DetectsAnyOneByteChange : Prop :=
  ∀ (D : Bytes) (i : Nat) (old new : Byte), D[i]? = some old → new ≠ old →
    Machine.crc32 (D.set i new) ≠ Machine.crc32 D

/-- R107, R108. The generator appends the checksum of bytes 3 on, the verifier recomputes and compares. -/
def Obligations.ChecksumAppendAndVerify : Prop :=
  ∀ (G D : Bytes) (k : BitVec 32) (s : State),
    exec (.crcAppend G) s =
      .next { s with result := some (.bytes (G ++ le32 (Machine.crc32 (G.drop 3)))) } ∧
    exec (.crcVerify D k) s = .next { s with result := some (.bool (decide (Machine.crc32 D = k))) } ∧
    memRead4 (Machine.crcAppend G) G.length = Machine.crc32 (G.drop 3) ∧
    (3 ≤ G.length →
      Machine.crcVerify (((Machine.crcAppend G).drop 3).take (G.length - 3))
        (memRead4 (Machine.crcAppend G) G.length) = true)

/-- R115. Byte `i` of the result is byte `i` of the payload XOR byte `i mod len(K)` of the key. -/
def Obligations.XorTransformByteByByte : Prop :=
  ∀ (P K : Bytes) (s : State), ∃ R, exec (.xorTransform P K) s = .next { s with result := some (.bytes R) } ∧
    R.length = P.length ∧ (K = [] → R = P) ∧
    ∀ i p k, P[i]? = some p → K[i % K.length]? = some k → R[i]? = some (p ^^^ k)

/-- R117. -/
def Obligations.XorTransformIsAnInvolution : Prop :=
  ∀ P K : Bytes, Machine.xorTransform (Machine.xorTransform P K) K = P

/-! ## Parser -/

/-- R161. -/
def Obligations.SplitSeparatesAtEveryColon : Prop :=
  ∀ (Q : Bytes) (s : State), ∃ f, exec (.split Q) s = .next { s with result := some (.fields f) } ∧
    joinFields f = Q ∧ (∀ x ∈ f, Config.colon ∉ x) ∧ f.length = Q.count Config.colon + 1

/-- R163. -/
def Obligations.ParseDurationReadsDigits : Prop :=
  ∀ (d : Bytes) (s : State), ∃ r, exec (.parseDuration d) s = .next { s with result := some (.duration r) } ∧
    (d ≠ [] ∧ (∀ b ∈ d, 0x30 ≤ b.toNat ∧ b.toNat ≤ 0x39) →
      r = some (Nat.ofDigits 10 (d.reverse.map fun b => b.toNat - 0x30))) ∧
    (¬ (d ≠ [] ∧ ∀ b ∈ d, 0x30 ≤ b.toNat ∧ b.toNat ≤ 0x39) → r = none)

/-- R165. The duration policy: the upper bound clamps, below the lower bound the default. -/
def Obligations.ClampDurationPolicy : Prop :=
  ∀ (x : Option Nat) (s : State), ∃ n, exec (.clampDuration x) s = .next { s with result := some (.natural n) } ∧
    (x = none → n = 5000) ∧ (∀ v, x = some v → 30000 < v → n = 30000) ∧
    (∀ v, x = some v → v < 1000 → n = 5000) ∧ (∀ v, x = some v → 1000 ≤ v → v ≤ 30000 → n = v)

/-- R162. `PARSE_CMD` in terms of the text it is given: the two command forms, by their fields. -/
def Obligations.ParseCmdByFieldCount : Prop :=
  ∀ (Q : Bytes) (s : State), ∃ r, exec (.parseCmd Q) s = .next { s with result := some (.classified r) } ∧
    (∀ cid ini dur, fieldOk cid → fieldOk ini → fieldOk dur →
      Q = joinFields [Config.remoteUnlockText, cid, ini, dur] →
      r = .unlock cid ini (Machine.clampDuration (Machine.parseDuration dur))) ∧
    (∀ f : List Bytes, (∀ x ∈ f, fieldOk x) → f.length ≠ 3 → Q = joinFields (Config.remoteUnlockText :: f) →
      r = .invalidUnlock (f.headD [])) ∧
    (∀ cid ini, fieldOk cid → fieldOk ini → Q = joinFields [Config.remoteLockText, cid, ini] →
      r = .lock cid ini) ∧
    (∀ f : List Bytes, (∀ x ∈ f, fieldOk x) → f.length ≠ 2 → Q = joinFields (Config.remoteLockText :: f) →
      r = .invalidLock) ∧
    ((∀ f : List Bytes, (∀ x ∈ f, fieldOk x) → Q ≠ joinFields (Config.remoteUnlockText :: f) ∧
        Q ≠ joinFields (Config.remoteLockText :: f)) → r = .notACommand)

/-- R141. -/
def Obligations.ClassifyTokensFirst : Prop :=
  ∀ (Q : Bytes) (s : State), exec (.classify Q) s = .next { s with result := some (.classified
    (if Q = s.cfg.tokenGrant.bytes then .grantToken
     else if Q = s.cfg.tokenDeny.bytes then .denyToken
     else Machine.parseCmd Q)) }

/-- R174. Every parsed unlock has a duration in range, and the two examples of the source. -/
def Obligations.UnlockDurationAlwaysInRange : Prop :=
  (∀ (Q cid ini : Bytes) (d : Nat), Machine.parseCmd Q = .unlock cid ini d → 1000 ≤ d ∧ d ≤ 30000) ∧
  (let head := Config.remoteUnlockText ++
     [0x3A#8, 0x69#8, 0x64#8, 0x31#8, 0x3A#8, 0x61#8, 0x6C#8, 0x69#8, 0x63#8, 0x65#8, 0x3A#8]
   let cid := [0x69#8, 0x64#8, 0x31#8]
   let ini := [0x61#8, 0x6C#8, 0x69#8, 0x63#8, 0x65#8]
   Machine.parseCmd (head ++ [0x39#8, 0x39#8, 0x39#8, 0x39#8, 0x39#8]) = .unlock cid ini 30000 ∧
   Machine.parseCmd (head ++ [0x35#8, 0x30#8, 0x30#8]) = .unlock cid ini 5000)

/-! ## Uplink Sender -/

/-- R123, R20, R193. One frame is handed over, carrying the old `SEQ`; `SEQ` moves whatever the answer; a
refusal adds the condition with the frame's two sequence bytes; nothing else changes. -/
def Obligations.TxFrameSendsAndCounts : Prop :=
  ∀ (now : Nat) (t : Nibble) (p : Bytes) (s : State), (t = Config.mtScan → p.length ≤ Config.idMax) →
    ∃ F, Machine.enc s.cfg t s.cfg.deviceType s.seq (BitVec.ofNat 32 (now / 1000 % 2 ^ 32)) p = .frame F ∧
      (F.drop 5).take 2 = le16 s.seq ∧
      exec (.txFrame now t p) s = .next
        { s with
          seq := BitVec.ofNat 16 ((s.seq.toNat + 1) % 65536)
          sendAnswers := s.sendAnswers.tail
          calls := s.calls ++ .send F ::
            (if s.sendAnswers.headD .ok = .fail then [.diag (.sendFailed (le16 s.seq))] else []) }

/-- R124, R194. -/
def Obligations.SendScanRejectsLongOrSends : Prop :=
  ∀ (now : Nat) (id : Bytes) (s : State),
    (10 < id.length → exec (.sendScan now id) s =
      .next { s with calls := s.calls ++ [.diag (.encodeRejected id.length)]
                     result := some (.scanSent .rejected) }) ∧
    (id.length ≤ 10 → exec (.sendScan now id) s =
      .next { afterSend s (builtFrame s now 1#4 id) with result := some (.scanSent (.sent s.seq)) })

/-- R125, R126. Status strings are never rejected; the acknowledgment text has the form of R79. -/
def Obligations.SendStatusAndSendAck : Prop :=
  ∀ (now : Nat) (text cid : Bytes) (flag : Byte) (s : State), s.cfg.wf →
    exec (.sendStatus now text) s = .next (afterSend s (builtFrame s now 6#4 text)) ∧
    exec (.sendAck now cid flag text) s = .next (afterSend s (builtFrame s now s.cfg.mtAck
      ([0x41#8, 0x43#8, 0x4B#8, 0x3A#8] ++ cid ++ [0x3A#8, flag, 0x3A#8] ++ text)))

/-- The uplink rows of the table run as transmissions of their payload (the model's choice, log entry 6). -/
def Obligations.UplinkRowsTransmit : Prop :=
  ∀ (h : UpHeader) (p : Bytes) (s : State), s.cfg.wf →
    (10 < p.length → exec (.scan h p) s =
      .next { s with calls := s.calls ++ [.diag (.encodeRejected p.length)] }) ∧
    (p.length ≤ 10 → exec (.scan h p) s = .next (afterSend s (builtFrame s s.clock 1#4 p))) ∧
    exec (.status h p) s = .next (afterSend s (builtFrame s s.clock 6#4 p)) ∧
    exec (.ack h p) s = .next (afterSend s (builtFrame s s.clock s.cfg.mtAck p))

/-- R128. -/
def Obligations.HeartbeatWhenIntervalElapsed : Prop :=
  ∀ (now : Nat) (s : State), s.cfg.wf →
    (s.cfg.heartbeatInterval = none → exec (.heartbeat now) s = .next s) ∧
    (∀ k, s.cfg.heartbeatInterval = some k → now < s.hbLast + k → exec (.heartbeat now) s = .next s) ∧
    (∀ k, s.cfg.heartbeatInterval = some k → s.hbLast + k ≤ now → exec (.heartbeat now) s =
      .next { afterSend s (builtFrame s now 6#4 s.cfg.heartbeatText) with hbLast := now })

/-- R170, R222. What survives of an acknowledgment cut to 16 bytes. The text form of R79 makes the exact bound of
the last clause 9, where R170 and R222 derive 8 (DEDUCED, log entry 20). -/
def Obligations.AcknowledgmentCut : Prop :=
  ∀ (cid text : Bytes) (flag : Byte),
    let A := ackText cid flag text
    (cid.length ≤ 10 → (A.take 16)[5 + cid.length]? = some flag) ∧
    (10 < cid.length → A.take 16 = (Config.ackHead ++ [Config.colon] ++ cid ++ [Config.colon]).take 16) ∧
    (cid.length + text.length ≤ 8 → A.take 16 = A) ∧ (A.take 16 = A ↔ cid.length + text.length ≤ 9)

/-! ## Remote Command Dispatcher -/

/-- R167. The row's duration field is parsed by R163 and clamped by R165; nothing is sent at dispatch and
the exchange is not touched (R149, R166). -/
def Obligations.RemoteUnlockStartsHold : Prop :=
  ∀ (cid ini dur : Bytes) (s : State), ∃ d, d = Machine.clampDuration (Machine.parseDuration dur) ∧
    1000 ≤ d ∧ d ≤ 30000 ∧
    exec (.remoteUnlock cid ini dur) s = .next
      { s with
        cmdKind := .unlock
        cmdId := cid
        cmdInitiator := ini
        cmdDuration := d
        cmdValid := true
        calls := s.calls ++ [.act .openGate]
        holdCause := .unlock
        holdDeadline := s.clock + d
        holdActive := true }

/-- R168, R173. Close, acknowledgment with flag 1, STATUS `clos`, in that order, in one step; the command
record ends cleared. -/
def Obligations.RemoteLockClosesAndAcknowledges : Prop :=
  ∀ (cid ini : Bytes) (s : State), s.cfg.wf →
    let s1 : State := { s with calls := s.calls ++ [.act .closeGate] }
    let s2 := afterSend s1 (builtFrame s1 s.clock s.cfg.mtAck (ackText cid 0x31#8 s.cfg.ackTextLock))
    let s3 := afterSend s2 (builtFrame s2 s.clock 6#4 Config.statusClosed)
    exec (.remoteLock cid ini) s = .next
      { s3 with cmdValid := false, cmdKind := .unlock, cmdId := [], cmdInitiator := [], cmdDuration := 0 }

/-- R169. The condition, then one acknowledgment with flag 0; no actuation, no hold, no command record. -/
def Obligations.InvalidUnlockIsAcknowledged : Prop :=
  ∀ (fields : List Bytes) (s : State), s.cfg.wf →
    let s1 : State := { s with calls := s.calls ++ [.diag (.invalidCommandFormat .unlock)] }
    exec (.invalidUnlock fields) s = .next (afterSend s1 (builtFrame s1 s.clock s.cfg.mtAck
      (ackText (fields.headD []) 0x30#8 s.cfg.ackTextInvalid)))

/-- R171, R190. An invalid lock and an unrecognized payload leave only their condition behind. -/
def Obligations.InvalidLockAndUnrecognizedDiscarded : Prop :=
  ∀ (fields : List Bytes) (Q : Bytes) (s : State),
    exec (.invalidLock fields) s =
      .next { s with calls := s.calls ++ [.diag (.invalidCommandFormat .lock)] } ∧
    exec (.unrecognized Q) s = .next { s with calls := s.calls ++ [.diag (.unrecognizedToken Q.length)] }

/-- R172. -/
def Obligations.CmdClearDiscardsRecord : Prop :=
  ∀ s : State, exec .cmdClear s = .next
    { s with cmdValid := false, cmdKind := .unlock, cmdId := [], cmdInitiator := [], cmdDuration := 0 }

/-! ## Exchange State Machine -/

/-- R138. -/
def Obligations.XOpenOpensOneExchange : Prop :=
  ∀ (now : Nat) (id : Bytes) (s : State),
    (10 < id.length → exec (.xOpen now id) s =
      .next { s with calls := s.calls ++ [.diag (.encodeRejected id.length)] }) ∧
    (id.length ≤ 10 → exec (.xOpen now id) s = .next
      { afterSend s (builtFrame s now 1#4 id) with
        xstate := .awaitingDecision
        xseq := s.seq
        xdeadline := now + 12000
        xoutcome := .pending
        nextPoll := now })

/-- R142. Report, open, STATUS `open`, hold. -/
def Obligations.XGrantReportsOpensHolds : Prop :=
  ∀ (now : Nat) (s : State),
    let s1 : State := { s with xoutcome := .granted, xstate := .granted
                               calls := s.calls ++ [.report .granted, .act .openGate] }
    exec (.xGrant now) s = .next
      { afterSend s1 (builtFrame s1 now 6#4 [0x6F#8, 0x70#8, 0x65#8, 0x6E#8]) with
        holdCause := .grant
        holdDeadline := now + s.cfg.grantHold
        holdActive := true }

/-- R143, R144, R145. Deny and time-out report their outcome and destroy the record; neither actuates nor
sends. -/
def Obligations.DenyTimeoutAndClose : Prop :=
  ∀ (now : Nat) (s : State),
    let closed (calls : List EnvCall) : State :=
      { s with xstate := .idle, xseq := 0#16, xdeadline := 0, xoutcome := .pending, nextPoll := 0
               calls := calls }
    exec (.xDeny now) s = .next (closed (s.calls ++ [.report .denied])) ∧
    exec (.xTimeout now) s = .next (closed (s.calls ++ [.diag (.exchangeTimeout s.xseq), .report .timedOut])) ∧
    exec .xClose s = .next (closed s.calls)

/-- R146. Both ends of a hold. -/
def Obligations.HoldFinishByCause : Prop :=
  ∀ (now : Nat) (s : State), s.cfg.wf →
    let s1 : State := { s with calls := s.calls ++ [.act .closeGate] }
    let g2 := afterSend s1 (builtFrame s1 now 6#4 [0x63#8, 0x6C#8, 0x6F#8, 0x73#8])
    let u2 := afterSend s1 (builtFrame s1 now s.cfg.mtAck (ackText s.cmdId 0x31#8 s.cfg.ackTextUnlock))
    let u3 := afterSend u2 (builtFrame u2 now 6#4 [0x63#8, 0x6C#8, 0x6F#8, 0x73#8])
    (s.holdCause = .grant → exec (.holdFinish now) s = .next
      { g2 with xstate := .idle, xseq := 0#16, xdeadline := 0, xoutcome := .pending, nextPoll := 0
                holdActive := false, holdCause := .grant, holdDeadline := 0 }) ∧
    (s.holdCause = .unlock → exec (.holdFinish now) s = .next
      { u3 with cmdValid := false, cmdKind := .unlock, cmdId := [], cmdInitiator := [], cmdDuration := 0
                holdActive := false, holdCause := .grant, holdDeadline := 0 })

/-- R142, R143, R148. The token rows: they resolve an open exchange, and are stray without one. -/
def Obligations.TokensResolveOrAreStray : Prop :=
  ∀ s : State,
    (s.xstate = .awaitingDecision → exec .grant s = exec (.xGrant s.clock) s ∧
      exec .deny s = exec (.xDeny s.clock) s ∧ (∃ t, exec .grant s = .next t ∧ t.xstate = .granted) ∧
      (∃ t, exec .deny s = .next t ∧ t.xstate = .idle)) ∧
    (s.xstate ≠ .awaitingDecision →
      exec .grant s = .next { s with calls := s.calls ++ [.diag (.strayDecision .grant)] } ∧
      exec .deny s = .next { s with calls := s.calls ++ [.diag (.strayDecision .deny)] })

/-- R140, R187, R189. A buffer that is no frame leaves only its condition behind. -/
def Obligations.RxProcessDiscardsBadBuffers : Prop :=
  ∀ (now : Nat) (B : Bytes) (s : State),
    (∀ r, Machine.dnReceive s.cfg B = .malformed r → exec (.rxProcess now B) s =
      .next { s with calls := s.calls ++ [.diag (.malformedFrame r)] }) ∧
    (Machine.dnReceive s.cfg B = .checksumMismatch → exec (.rxProcess now B) s =
      .next { s with calls := s.calls ++ [.diag .checksumMismatch] })

/-- R140, R141, R85. A downlink frame is run as the row it decodes to. -/
def Obligations.RxProcessRunsTheDecodedRow : Prop :=
  ∀ (B : Bytes) (i : Instr) (s : State), B.take 3 = s.cfg.rxPrefix.bytes → decode s.cfg B = .instr i →
    exec (.rxProcess s.clock B) s = exec i s ∧ ∃ t, exec (.rxProcess s.clock B) s = .next t

/-! ## The step -/

/-- R136 branch H, R147. A hold blocks the whole loop: nothing is polled. -/
def Obligations.LoopStepInAHold : Prop :=
  ∀ (now : Nat) (s : State), s.holdActive = true →
    (now < s.holdDeadline → exec (.loopStep now) s = .next { s with clock := now } ∧
      exec (.holdWait now) s = .next s) ∧
    (s.holdDeadline ≤ now → exec (.loopStep now) s = exec (.holdFinish now) { s with clock := now } ∧
      ∃ t, exec (.loopStep now) s = .next t ∧ t.holdActive = false ∧
        t.pollAnswers = s.pollAnswers ∧ t.sensorAnswers = s.sensorAnswers)

/-- R136 branch W, R139. The deadline, the pacing, then at most one buffer; the sensor is not sampled. -/
def Obligations.LoopStepAwaitingDecision : Prop :=
  ∀ (now : Nat) (s : State), s.holdActive = false → s.xstate = .awaitingDecision →
    let c : State := { s with clock := now }
    let polled : State := { c with nextPoll := now + s.cfg.pollInterval, pollAnswers := s.pollAnswers.tail }
    (s.xdeadline ≤ now → exec (.loopStep now) s = exec (.xTimeout now) c) ∧
    (now < s.xdeadline → now < s.nextPoll → exec (.loopStep now) s = .next c) ∧
    (now < s.xdeadline → s.nextPoll ≤ now → s.pollAnswers.headD none = none →
      exec (.loopStep now) s = .next polled) ∧
    (∀ B, now < s.xdeadline → s.nextPoll ≤ now → s.pollAnswers.headD none = some B →
      exec (.loopStep now) s = exec (.rxProcess now B) polled) ∧
    (∃ t, exec (.loopStep now) s = .next t ∧ t.sensorAnswers = s.sensorAnswers)

/-- R136 branch I. The sensor has priority; then one buffer; the heartbeat only if no hold began. -/
def Obligations.LoopStepIdle : Prop :=
  ∀ (now : Nat) (s : State), s.holdActive = false → s.xstate = .idle →
    let c : State := { s with clock := now, sensorAnswers := s.sensorAnswers.tail }
    let p : State := { c with pollAnswers := s.pollAnswers.tail }
    (∀ id, s.sensorAnswers.headD none = some id → exec (.loopStep now) s = exec (.xOpen now id) c) ∧
    (s.sensorAnswers.headD none = none → s.pollAnswers.headD none = none →
      exec (.loopStep now) s = exec (.heartbeat now) p) ∧
    (∀ B, s.sensorAnswers.headD none = none → s.pollAnswers.headD none = some B →
      ∃ t, exec (.rxProcess now B) p = .next t ∧
        (t.holdActive = true → exec (.loopStep now) s = .next t) ∧
        (t.holdActive = false → exec (.loopStep now) s = exec (.heartbeat now) t))

/-- A step runs the operation the host asks for, or one more iteration of the loop. Nothing is fetched (R19): the
last three clauses say what the step after `withFetchWord` does (the model's choice, log entry 4). The row of a
downlink frame runs from the state the frame was placed in, and the loop adds its heartbeat check in `Idle` and its
pacing in `AwaitingDecision`; a SCAN row runs as the X_OPEN of its identifier. -/
def Obligations.StepRunsTheDecodedInstruction : Prop :=
  ∀ (s : State) (i : Instr) (h : hostMay i = true) (rest : List Request) (nbits w : Nat),
    let B := bytesOfWord (nbits / 8) w
    (s.requests = [] → step s = exec (.loopStep s.clock) s) ∧
    (s.requests = .call i h :: rest → step s = exec i { s with requests := rest }) ∧
    (∀ j, decode s.cfg B = .instr j → B.take 3 = s.cfg.rxPrefix.bytes → s.holdActive = false →
      s.xstate ≠ .awaitingDecision → ∃ t, exec j s = .next t ∧
        step (s.withFetchWord nbits w) = if t.holdActive then .next t else exec (.heartbeat s.clock) t) ∧
    (∀ j, decode s.cfg B = .instr j → B.take 3 = s.cfg.rxPrefix.bytes → s.holdActive = false →
      s.xstate = .awaitingDecision → step (s.withFetchWord nbits w) =
        exec j { s with nextPoll := s.clock + s.cfg.pollInterval, xdeadline := max s.xdeadline (s.clock + 1) }) ∧
    (∀ hdr p, decode s.cfg B = .instr (.scan hdr p) → s.holdActive = false → s.xstate = .idle →
      step (s.withFetchWord nbits w) = exec (.xOpen s.clock p) s)

/-- The row of a downlink frame that `LOOP_STEP` polls runs inside that step: while a decision is awaited it is
the whole effect beside the pacing; in `Idle` the heartbeat check follows. -/
def Obligations.PolledFrameRunsInTheStep : Prop :=
  ∀ (s : State) (B : Bytes) (i : Instr), s.requests = [] → s.holdActive = false →
    B.take 3 = s.cfg.rxPrefix.bytes → decode s.cfg B = .instr i → s.pollAnswers.headD none = some B →
    (s.xstate = .awaitingDecision → s.clock < s.xdeadline → s.nextPoll ≤ s.clock →
      step s = exec i { s with nextPoll := s.clock + s.cfg.pollInterval
                               pollAnswers := s.pollAnswers.tail }) ∧
    (s.xstate = .idle → s.sensorAnswers.headD none = none →
      ∃ t, exec i { s with sensorAnswers := s.sensorAnswers.tail, pollAnswers := s.pollAnswers.tail } = .next t ∧
        step s = if t.holdActive then .next t else exec (.heartbeat s.clock) t)

/-- R186. No instruction ever stops the block, and every instruction completes in every state. -/
def Obligations.EveryInstructionCompletes : Prop :=
  ∀ (i : Instr) (s : State), ∃ t, exec i s = .next t ∧ s.calls <+: t.calls

/-- R5, D33. A step is refused exactly on the bus-structured command form. -/
def Obligations.StepRefusesOnlyTheBusForm : Prop :=
  ∀ s : State,
    ((∃ m rest, s.requests = .busCommand m :: rest) → step s = .refused .busCommandForm) ∧
    ((¬ ∃ m rest, s.requests = .busCommand m :: rest) → ∃ t, step s = .next t)

/-! ## Reset, invariants and whole-machine rules -/

/-- R210. Every register takes its reset value; the parameters are kept; no environment call is made. -/
def Obligations.ResetRestoresEveryRegister : Prop :=
  ∀ s : State, ∃ t, exec .reset s = .next t ∧
    t.seq = 0#16 ∧ t.xstate = .idle ∧ t.xseq = 0#16 ∧ t.xdeadline = 0 ∧ t.xoutcome = .pending ∧ t.nextPoll = 0 ∧
    t.holdActive = false ∧ t.holdCause = .grant ∧ t.holdDeadline = 0 ∧ t.cmdValid = false ∧
    t.cmdKind = .unlock ∧ t.cmdId = [] ∧ t.cmdInitiator = [] ∧ t.cmdDuration = 0 ∧ t.hbLast = 0 ∧
    t.cfg = s.cfg ∧ t.calls = s.calls ∧ t.sensorAnswers = s.sensorAnswers ∧ t.pollAnswers = s.pollAnswers ∧
    t.sendAnswers = s.sendAnswers

/-- The invariant holds at reset, under every configuration. -/
def Obligations.ResetStateMeetsInvariant : Prop :=
  ∀ c : Config, (State.resetWith c).Inv ∧ (State.resetWith c).cfg = c

/-- R26, R21, R24. Every step keeps the invariant. -/
def Obligations.StepKeepsInvariant : Prop :=
  ∀ s t : State, s.Inv → step s = .next t → t.Inv

/-- R27. No instruction writes a configuration constant. -/
def Obligations.ConfigurationNeverWritten : Prop :=
  ∀ (i : Instr) (s : State), ∃ t, exec i s = .next t ∧ t.cfg = s.cfg

/-- R32, closed under calls. An instruction that is not listed for a record leaves it alone. -/
def Obligations.OnlyListedOperationsWrite : Prop :=
  ∀ (i : Instr) (s : State), ∃ t, exec i s = .next t ∧
    (writesSeq i = false → t.seq = s.seq) ∧
    (writesExchange i = false → t.xstate = s.xstate ∧ t.xseq = s.xseq ∧ t.xdeadline = s.xdeadline ∧
      t.xoutcome = s.xoutcome ∧ t.nextPoll = s.nextPoll) ∧
    (writesHold i = false → t.holdActive = s.holdActive ∧ t.holdCause = s.holdCause ∧
      t.holdDeadline = s.holdDeadline) ∧
    (writesCommand i = false → t.cmdValid = s.cmdValid ∧ t.cmdKind = s.cmdKind ∧ t.cmdId = s.cmdId ∧
      t.cmdInitiator = s.cmdInitiator ∧ t.cmdDuration = s.cmdDuration) ∧
    (writesHeartbeat i = false → t.hbLast = s.hbLast)

/-- R15, R207, R44. The pure operations return a value and touch no register, no answer and no call, and running one
again changes nothing. `UP_RECEIVE` raises its checksum mismatch to its caller, with the value (R185; DEDUCED, log
entry 12). Six of the seventeen are R207's, and that the host may ask for the other eleven is the model's choice (log
entry 24). So a step changes a register, an answer or a call only where it runs `LOOP_STEP` or `RESET`. -/
def Obligations.PureOperationsTouchNoState : Prop :=
  (∀ (i : Instr) (s : State), isPure i = true →
    ∃ v, exec i s = .next { s with result := some v } ∧
      exec i { s with result := some v } = .next { s with result := some v }) ∧
  (∀ (B : Bytes) (s : State), ∃ r, exec (.upReceive B) s = .next
    { s with result := some (.upReceived r (if r = .checksumMismatch then some .checksumMismatch else none)) }) ∧
  (∀ s t : State, step s = .next t →
    s.requests = [] ∨ (∃ now h rest, s.requests = .call (.loopStep now) h :: rest) ∨
    (∃ h rest, s.requests = .call .reset h :: rest) ∨
    t = { s with requests := t.requests, result := t.result })

/-- R20, R123. Every instruction but RESET moves `SEQ` by exactly the number of frames it hands over. -/
def Obligations.SeqCountsFramesSent : Prop :=
  ∀ (i : Instr) (s : State), i ≠ .reset → ∃ t, exec i s = .next t ∧
    t.seq = s.seq + BitVec.ofNat 16 (framesOf (newCalls s t)).length

/-- R122. Every frame a step sends is a well-formed uplink frame of the block, with a valid checksum. -/
def Obligations.EveryFrameSentIsWellFormed : Prop :=
  ∀ s t : State, s.Inv → step s = .next t →
    ∀ F ∈ framesOf (newCalls s t), sentFrameOk s.cfg t.clock F

/-- R152. A step reports at most once, exactly when it leaves `AwaitingDecision`, with the outcome that says
where to; a deny or a time-out comes with no actuation and no frame. -/
def Obligations.ReportExactlyOnResolution : Prop :=
  ∀ (now : Nat) (s : State), s.Inv → ∃ t, exec (.loopStep now) s = .next t ∧
    (s.xstate = .awaitingDecision ∧ t.xstate = .granted ∧ reportsOf (newCalls s t) = [.granted] ∧
        actsOf (newCalls s t) = [.openGate] ∧ (framesOf (newCalls s t)).length = 1 ∨
     s.xstate = .awaitingDecision ∧ t.xstate = .idle ∧ actsOf (newCalls s t) = [] ∧
        framesOf (newCalls s t) = [] ∧
        (reportsOf (newCalls s t) = [.denied] ∨
          reportsOf (newCalls s t) = [.timedOut] ∧ s.xdeadline ≤ now) ∨
     (s.xstate = .awaitingDecision → t.xstate = .awaitingDecision) ∧ reportsOf (newCalls s t) = [])

/-- R151. With a transport that never gives a buffer, an exchange opened at `t0` reports `TimedOut` at the first
step with `now >= t0 + 12000` and nothing before, however many steps lie between; and if that step comes within a poll
interval of the last one, at most one poll interval late (arithmetic on the premises). R151 also allows transports that
give only discarded buffers or locks: what one step does there is in RxProcessDiscardsBadBuffers,
RxProcessRunsTheDecodedRow and LoopStepAwaitingDecision. -/
def Obligations.TimeoutAtTheDeadline : Prop :=
  ∀ (s : State) (t0 : Nat) (id : Bytes) (samples : List Nat) (last : Nat),
    s.xstate = .idle → s.holdActive = false → s.sensorAnswers.headD none = some id → id.length ≤ 10 →
    (∀ a ∈ s.pollAnswers, a = none) → (∀ n ∈ samples, n < t0 + 12000) → t0 + 12000 ≤ last →
    let opened := Machine.loopStep t0 s
    let before := loopRun opened samples
    let after := Machine.loopStep last before
    newCalls opened before = [] ∧ before.xstate = .awaitingDecision ∧
    newCalls before after = [.diag (.exchangeTimeout s.seq), .report .timedOut] ∧ after.xstate = .idle ∧
    (last ≤ (samples.getLast?.getD t0) + s.cfg.pollInterval → last ≤ t0 + 12000 + s.cfg.pollInterval)

/-- R224, R147, R149. An unlock hold that outlasts the deadline makes the open exchange time out at the first
step after the hold, whatever the transport offers. -/
def Obligations.UnlockHoldConsumesTheWindow : Prop :=
  ∀ (s : State) (n1 n2 : Nat), s.holdActive = true → s.holdCause = .unlock → s.xstate = .awaitingDecision →
    s.xdeadline ≤ s.holdDeadline → s.holdDeadline ≤ n1 → n1 ≤ n2 →
    let finished := Machine.loopStep n1 s
    let after := Machine.loopStep n2 finished
    finished.xstate = .awaitingDecision ∧ finished.xdeadline = s.xdeadline ∧ finished.holdActive = false ∧
    newCalls finished after = [.diag (.exchangeTimeout s.xseq), .report .timedOut] ∧
    after.xstate = .idle ∧ after.pollAnswers = s.pollAnswers

/-! ## Encodings -/

/-- Decoding an encoded well-formed instruction gives it back, for the ten rows with a wire encoding, under
every configuration that meets R7. With `MT_ACK = 6` one type is two rows, and it is the model's choice (DEDUCED, log
entry 7, unsafe for claims such as this one) that a text beginning with `ACK:` is the row ACK, so that a STATUS with
such a text is not well-formed: the second clause says what that form decodes to. -/
def Obligations.DecodeInvertsEncode : Prop :=
  (∀ (c : Config) (i : Instr) (B : Bytes), c.wf → i.wf c → encode c i = some B → decode c B = .instr i) ∧
  (∀ (c : Config) (h : UpHeader) (p B : Bytes), c.wf → c.mtAck = Config.mtStatus → fitsLengthByte p → isAckText p →
    encode c (.status h p) = some B → decode c B = .instr (.ack h p))

/-- A few frames written out from R61, R68 and the vectors of 95_test_vectors (under CFG_REF). -/
def Obligations.DecodeOfWrittenOutFrames : Prop :=
  decode Config.ref [0xAA#8, 0xBB#8, 0xCC#8, 0x11#8, 0x01#8, 0x00#8, 0x00#8, 0x00#8, 0x00#8, 0x00#8, 0x00#8,
      0x04#8, 0x04#8, 0xA2#8, 0x13#8, 0x9B#8, 0x7E#8, 0x2A#8, 0xE4#8, 0xFC#8] =
    .instr (.scan ⟨1#4, 0#4, 1#4, 0#16, 0#32⟩ [0x04#8, 0xA2#8, 0x13#8, 0x9B#8]) ∧
  decode Config.ref [0xDD#8, 0xEE#8, 0xFF#8, 0x00#8, 0x00#8, 0x01#8, 0x05#8, 0x47#8, 0x52#8, 0x41#8, 0x4E#8,
      0x54#8] = .instr .grant ∧
  decode Config.ref [0xDD#8, 0xEE#8, 0xFF#8, 0x00#8, 0x00#8, 0x02#8, 0x05#8, 0x47#8, 0x52#8, 0x41#8, 0x4E#8,
      0x54#8] = .rejected (.malformed .badChannel)
end

