-- ==== Sys2Proof/Laws/Codec.lean ====
section
/-! SUPPORT. Laws of the codec's operations: nibbles, little-endian fields, buffer reads over appended parts, the
length and self-inverse laws of the obfuscation stage, and what `DEC_UP` and `DEC_DN` read from built frames. -/

namespace Sys2Proof.Machine

/-! ### Nibbles and little-endian fields -/

theorem unpackNib_packTv (t v : Nibble) : unpackNib (packTv t v) = (t, v) := by
  revert t v; decide +kernel

theorem unpackNib_packFd (f d : Nibble) : unpackNib (packFd f d) = (f, d) := by
  revert f d; decide +kernel

theorem packTv_unpackNib (b : Byte) : packTv (unpackNib b).1 (unpackNib b).2 = b := by
  revert b; decide +kernel

@[simp] theorem le16_length (v : BitVec 16) : (le16 v).length = 2 := rfl

@[simp] theorem le32_length (v : BitVec 32) : (le32 v).length = 4 := rfl

theorem join16 (v : BitVec 16) : (v.extractLsb' 8 8 ++ v.extractLsb' 0 8 : BitVec (8 + 8)) = v := by
  ext i hi
  simp only [BitVec.getElem_append, BitVec.getElem_extractLsb']
  split
  · simp [BitVec.getLsbD_eq_getElem hi]
  · rw [show 8 + (i - 8) = i by omega, BitVec.getLsbD_eq_getElem hi]

theorem join32 (v : BitVec 32) :
    (v.extractLsb' 24 8 ++ v.extractLsb' 16 8 ++ v.extractLsb' 8 8 ++ v.extractLsb' 0 8 :
      BitVec (8 + 8 + 8 + 8)) = v := by
  ext i hi
  simp only [BitVec.getElem_append, BitVec.getElem_extractLsb']
  split
  · simp [BitVec.getLsbD_eq_getElem hi]
  split
  · rw [show 8 + (i - 8) = i by omega, BitVec.getLsbD_eq_getElem hi]
  split
  · rw [show 16 + (i - 8 - 8) = i by omega, BitVec.getLsbD_eq_getElem hi]
  · rw [show 24 + (i - 8 - 8 - 8) = i by omega, BitVec.getLsbD_eq_getElem hi]

/-! ### Buffer reads -/

theorem memRead1_append_left (A B : Bytes) (o : Nat) (h : o < A.length) :
    memRead1 (A ++ B) o = memRead1 A o := by
  simp [memRead1, List.getD_eq_getElem?_getD, List.getElem?_append_left h]

theorem memRead1_append_right (A B : Bytes) (o : Nat) : memRead1 (A ++ B) (A.length + o) = memRead1 B o := by
  rw [memRead1, memRead1, List.getD_eq_getElem?_getD, List.getD_eq_getElem?_getD,
    List.getElem?_append_right (by omega), Nat.add_sub_cancel_left]

theorem memRead2_le16 (A B : Bytes) (v : BitVec 16) : memRead2 (A ++ le16 v ++ B) A.length = v := by
  have h0 : memRead1 (A ++ le16 v ++ B) A.length = v.extractLsb' 0 8 := by
    rw [List.append_assoc, ← Nat.add_zero A.length, memRead1_append_right]; rfl
  have h1 : memRead1 (A ++ le16 v ++ B) (A.length + 1) = v.extractLsb' 8 8 := by
    rw [List.append_assoc, memRead1_append_right]; rfl
  rw [memRead2, h0, h1]; exact join16 v

theorem memRead4_le32 (A B : Bytes) (v : BitVec 32) : memRead4 (A ++ le32 v ++ B) A.length = v := by
  have h (k : Nat) : memRead1 (A ++ le32 v ++ B) (A.length + k) = memRead1 (le32 v ++ B) k := by
    rw [List.append_assoc, memRead1_append_right]
  rw [memRead4, h 3, h 2, h 1, ← Nat.add_zero A.length, h 0]; exact join32 v

theorem slice_middle (A B C : Bytes) : slice (A ++ B ++ C) A.length B.length = B := by
  simp [slice]

/-- Everything a write can do to a read (R41): inside the stored bytes it gives them, outside the old byte. -/
theorem memWriteBytes_read (B : Bytes) (o : Nat) (v : Bytes) (ho : o ≤ B.length) (a : Nat) :
    memRead1 (memWriteBytes B o v) a =
      if a < o then memRead1 B a else if a < o + v.length then memRead1 v (a - o) else memRead1 B a := by
  have hl : (B.take o).length = o := by simp; omega
  unfold memWriteBytes
  rw [List.append_assoc]
  by_cases h : a < o
  · rw [memRead1_append_left _ _ _ (by omega)]
    simp [h, memRead1, List.getD_eq_getElem?_getD]
  · obtain ⟨k, rfl⟩ : ∃ k, a = (B.take o).length + k := ⟨a - o, by omega⟩
    rw [memRead1_append_right]
    rw [hl] at h ⊢
    by_cases h2 : k < v.length
    · rw [memRead1_append_left _ _ _ h2]; simp [h2]
    · obtain ⟨j, rfl⟩ : ∃ j, k = v.length + j := ⟨k - v.length, by omega⟩
      rw [memRead1_append_right]
      simp [memRead1, List.getD_eq_getElem?_getD]
      rw [show o + (v.length + j) = o + v.length + j by omega]

/-! ### The obfuscation stage -/

@[simp] theorem xorFrom_length (K : Bytes) (i : Nat) (P : Bytes) : (xorFrom K i P).length = P.length := by
  induction P generalizing i with
  | nil => rfl
  | cons p rest ih => simp [xorFrom, ih]

/-- The stage preserves length (R118). -/
@[simp] theorem xorTransform_length (P K : Bytes) : (xorTransform P K).length = P.length := by
  cases K <;> simp [xorTransform]

@[simp] theorem stageOf_length (c : Config) (P : Bytes) : (stageOf c P).length = P.length := by
  simp [stageOf]

theorem xorFrom_xorFrom (K : Bytes) (i : Nat) (P : Bytes) : xorFrom K i (xorFrom K i P) = P := by
  induction P generalizing i with
  | nil => rfl
  | cons p rest ih => simp [xorFrom, ih]

/-! ### Frames -/

@[simp] theorem byte3_length (t : Byte3) : t.bytes.length = 3 := rfl

theorem crcAppend_length (G : Bytes) : (crcAppend G).length = G.length + 4 := by
  simp [crcAppend]

theorem upBody_length (c : Config) (t v f d : Nibble) (q : BitVec 16) (ts : BitVec 32) (W : Bytes) :
    (upBody c t v f d q ts W).length = 12 + W.length := by
  simp [upBody]; omega

/-- `DEC_UP` of a built frame with a payload that fits the length byte reads every field back (R95). -/
theorem decUp_built (c : Config) (t v f d : Nibble) (q : BitVec 16) (ts : BitVec 32) (W : Bytes) (k : BitVec 32)
    (hW : W.length ≤ 255) :
    decUp c (upBody c t v f d q ts W ++ le32 k) = .frame
      { msgType := t, version := v, flags := f, deviceType := d, sequence := q, timestamp := ts,
        payloadLength := W.length, payload := W, checksum := k } := by
  have hlen : (upBody c t v f d q ts W ++ le32 k).length = 16 + W.length := by
    rw [List.length_append, upBody_length]; simp; omega
  have hL : (memRead1 (upBody c t v f d q ts W ++ le32 k) 11).toNat = W.length := by
    show ((BitVec.ofNat 8 W.length).toNat = W.length)
    rw [BitVec.toNat_ofNat]; omega
  have hq : memRead2 (upBody c t v f d q ts W ++ le32 k) 5 = q := join16 q
  have ht : memRead4 (upBody c t v f d q ts W ++ le32 k) 7 = ts := join32 ts
  have hp : slice (upBody c t v f d q ts W ++ le32 k) 12 W.length = W := by
    have := slice_middle (c.magic.bytes ++ [packTv t v, packFd f d] ++ le16 q ++ le32 ts ++
      [BitVec.ofNat 8 W.length]) W (le32 k)
    simpa [upBody] using this
  have hk : memRead4 (upBody c t v f d q ts W ++ le32 k) (12 + W.length) = k := by
    have := memRead4_le32 (upBody c t v f d q ts W) [] k
    rwa [upBody_length, List.append_nil] at this
  have h3 : memRead1 (upBody c t v f d q ts W ++ le32 k) 3 = packTv t v := rfl
  have h4 : memRead1 (upBody c t v f d q ts W ++ le32 k) 4 = packFd f d := rfl
  have hm : (upBody c t v f d q ts W ++ le32 k).take 3 = c.magic.bytes := rfl
  simp only [decUp, hlen, hL, hq, ht, hp, hk, h3, h4, hm, unpackNib_packTv, unpackNib_packFd]
  simp

/-- The covered region of a built frame is everything after the magic (R67). -/
theorem slice_built (c : Config) (t v f d : Nibble) (q : BitVec 16) (ts : BitVec 32) (W : Bytes) (k : BitVec 32) :
    slice (upBody c t v f d q ts W ++ le32 k) 3 (9 + W.length) = (upBody c t v f d q ts W).drop 3 := by
  have h := upBody_length c t v f d q ts W
  rw [slice, List.drop_append_of_le_length (by omega), List.take_append_of_le_length (by simp [h]; omega)]
  exact List.take_of_length_le (by simp [h]; omega)

/-- `UP_RECEIVE` of a frame the generator closed: the stage undone, every other field read back (R98). -/
theorem upReceiveWith_built (stage : Stage) (c : Config) (t v f d : Nibble) (q : BitVec 16) (ts : BitVec 32)
    (W : Bytes) (hW : W.length ≤ 255) :
    upReceiveWith stage c (crcAppend (upBody c t v f d q ts W)) = .frame
      { msgType := t, version := v, flags := f, deviceType := d, sequence := q, timestamp := ts,
        payloadLength := W.length, payload := stage W, checksum := crc32 ((upBody c t v f d q ts W).drop 3) } := by
  simp only [upReceiveWith, crcAppend, decUp_built c t v f d q ts W _ hW, slice_built, crcVerify, beq_self_eq_true,
    if_true]

/-- The decoder delivers a trailer exactly with `DN_CRC` (R96, 90_conflicts C8), and a payload as long as the
length byte says. -/
theorem decDn_frame (c : Config) (B : Bytes) (fr : DnFrame) (h : decDn c B = .frame fr) :
    fr.payloadLength = (memRead1 B 6).toNat ∧ fr.payload = slice B 7 fr.payloadLength ∧
      fr.trailer = if c.dnCrc then some (memRead4 B (7 + fr.payloadLength)) else none := by
  unfold decDn at h
  split at h
  · cases h
  split at h
  · cases h
  split at h
  · cases h
  simp only at h
  split at h
  · cases h
  · cases h; exact ⟨rfl, rfl, rfl⟩

/-- A received payload is at most 255 bytes (R68: the length byte). -/
theorem dnReceive_payload_length (c : Config) (B Q : Bytes) (h : dnReceive c B = .payload Q) : Q.length ≤ 255 := by
  unfold dnReceive dnReceiveWith at h
  split at h
  · cases h
  · next fr hfr =>
    obtain ⟨hL, hp, -⟩ := decDn_frame c B fr hfr
    have hb : (memRead1 B 6).toNat < 256 := (memRead1 B 6).isLt
    have hlen : fr.payload.length ≤ 255 := by
      rw [hp, slice, List.length_take]; omega
    have hQ : Q = stageOf c fr.payload := by
      split at h
      · split at h
        · cases h; rfl
        · cases h
      · cases h; rfl
    rw [hQ, stageOf_length]; exact hlen

/-- A downlink frame without a trailer (R68). -/
def dnBody (c : Config) (x y : Byte) (W : Bytes) : Bytes :=
  c.rxPrefix.bytes ++ [x, y, c.rxChannel, BitVec.ofNat 8 W.length] ++ W

theorem dnBody_length (c : Config) (x y : Byte) (W : Bytes) : (dnBody c x y W).length = 7 + W.length := by
  simp [dnBody]; omega

theorem slice_dnBody (c : Config) (x y : Byte) (W T : Bytes) : slice (dnBody c x y W ++ T) 7 W.length = W := by
  have := slice_middle (c.rxPrefix.bytes ++ [x, y, c.rxChannel, BitVec.ofNat 8 W.length]) W T
  simpa [dnBody] using this

/-- `DN_RECEIVE` of a built frame without a trailer, when `DN_CRC` is off (R99). -/
theorem dnReceive_plain (c : Config) (x y : Byte) (W : Bytes) (hW : W.length ≤ 255) (hc : c.dnCrc = false) :
    dnReceive c (dnBody c x y W) = .payload (stageOf c W) := by
  have hL : (memRead1 (dnBody c x y W) 6).toNat = W.length := by
    show ((BitVec.ofNat 8 W.length).toNat = W.length)
    rw [BitVec.toNat_ofNat]; omega
  have h5 : memRead1 (dnBody c x y W) 5 = c.rxChannel := rfl
  have hm : (dnBody c x y W).take 3 = c.rxPrefix.bytes := rfl
  have hp := slice_dnBody c x y W []
  rw [List.append_nil] at hp
  simp [dnReceive, dnReceiveWith, decDn, dnTrailerLength, hc, hL, h5, hm, dnBody_length, hp]

/-- `DN_RECEIVE` of a built frame with the generated trailer, when `DN_CRC` is on (R99, decision D12). -/
theorem dnReceive_checked (c : Config) (x y : Byte) (W : Bytes) (hW : W.length ≤ 255) (hc : c.dnCrc = true) :
    dnReceive c (crcAppend (dnBody c x y W)) = .payload (stageOf c W) := by
  have hlen := dnBody_length c x y W
  have hL : (memRead1 (crcAppend (dnBody c x y W)) 6).toNat = W.length := by
    show ((BitVec.ofNat 8 W.length).toNat = W.length)
    rw [BitVec.toNat_ofNat]; omega
  have h5 : memRead1 (crcAppend (dnBody c x y W)) 5 = c.rxChannel := rfl
  have hm : (crcAppend (dnBody c x y W)).take 3 = c.rxPrefix.bytes := rfl
  have hp : slice (crcAppend (dnBody c x y W)) 7 W.length = W := slice_dnBody c x y W _
  have hk : memRead4 (crcAppend (dnBody c x y W)) (7 + W.length) = crc32 ((dnBody c x y W).drop 3) := by
    have := memRead4_le32 (dnBody c x y W) [] (crc32 ((dnBody c x y W).drop 3))
    rwa [hlen, List.append_nil] at this
  have hs : slice (crcAppend (dnBody c x y W)) 3 (4 + W.length) = (dnBody c x y W).drop 3 := by
    rw [crcAppend, slice, List.drop_append_of_le_length (by omega),
      List.take_append_of_le_length (by simp [hlen]; omega)]
    exact List.take_of_length_le (by simp [hlen]; omega)
  have hn : (crcAppend (dnBody c x y W)).length = 11 + W.length := by rw [crcAppend_length, hlen]; omega
  have h1 : ¬ (11 + W.length < 7 + 4) := by omega
  have h2 : 7 + W.length + 4 = 11 + W.length := by omega
  simp [dnReceive, dnReceiveWith, decDn, dnTrailerLength, hc, hL, h5, hm, hn, hp, hk, hs, crcVerify, h1, h2]

end Sys2Proof.Machine
end

