-- ==== Sys2Proof/Laws/State.lean ====
section
/-! SUPPORT. One lemma per field and per named update of the state, all true by `rfl`, so that no proof unfolds a
record update. -/

namespace Sys2Proof.Machine

variable (s : State)

/-! ### What making one output call (R13) leaves in each field -/

@[simp] theorem emit_seq (c : EnvCall) : (emit c s).seq = s.seq := rfl
@[simp] theorem emit_xstate (c : EnvCall) : (emit c s).xstate = s.xstate := rfl
@[simp] theorem emit_xseq (c : EnvCall) : (emit c s).xseq = s.xseq := rfl
@[simp] theorem emit_xdeadline (c : EnvCall) : (emit c s).xdeadline = s.xdeadline := rfl
@[simp] theorem emit_xoutcome (c : EnvCall) : (emit c s).xoutcome = s.xoutcome := rfl
@[simp] theorem emit_nextPoll (c : EnvCall) : (emit c s).nextPoll = s.nextPoll := rfl
@[simp] theorem emit_holdActive (c : EnvCall) : (emit c s).holdActive = s.holdActive := rfl
@[simp] theorem emit_holdCause (c : EnvCall) : (emit c s).holdCause = s.holdCause := rfl
@[simp] theorem emit_holdDeadline (c : EnvCall) : (emit c s).holdDeadline = s.holdDeadline := rfl
@[simp] theorem emit_cmdValid (c : EnvCall) : (emit c s).cmdValid = s.cmdValid := rfl
@[simp] theorem emit_cmdKind (c : EnvCall) : (emit c s).cmdKind = s.cmdKind := rfl
@[simp] theorem emit_cmdId (c : EnvCall) : (emit c s).cmdId = s.cmdId := rfl
@[simp] theorem emit_cmdInitiator (c : EnvCall) : (emit c s).cmdInitiator = s.cmdInitiator := rfl
@[simp] theorem emit_cmdDuration (c : EnvCall) : (emit c s).cmdDuration = s.cmdDuration := rfl
@[simp] theorem emit_hbLast (c : EnvCall) : (emit c s).hbLast = s.hbLast := rfl
@[simp] theorem emit_cfg (c : EnvCall) : (emit c s).cfg = s.cfg := rfl
@[simp] theorem emit_clock (c : EnvCall) : (emit c s).clock = s.clock := rfl
@[simp] theorem emit_sensorAnswers (c : EnvCall) : (emit c s).sensorAnswers = s.sensorAnswers := rfl
@[simp] theorem emit_pollAnswers (c : EnvCall) : (emit c s).pollAnswers = s.pollAnswers := rfl
@[simp] theorem emit_sendAnswers (c : EnvCall) : (emit c s).sendAnswers = s.sendAnswers := rfl
@[simp] theorem emit_requests (c : EnvCall) : (emit c s).requests = s.requests := rfl
@[simp] theorem emit_calls (c : EnvCall) : (emit c s).calls = s.calls ++ [c] := rfl
@[simp] theorem emit_result (c : EnvCall) : (emit c s).result = s.result := rfl

/-! ### What raising a condition (R186) leaves in each field -/

@[simp] theorem raise_seq (d : Diag) : (raise d s).seq = s.seq := rfl
@[simp] theorem raise_xstate (d : Diag) : (raise d s).xstate = s.xstate := rfl
@[simp] theorem raise_xseq (d : Diag) : (raise d s).xseq = s.xseq := rfl
@[simp] theorem raise_xdeadline (d : Diag) : (raise d s).xdeadline = s.xdeadline := rfl
@[simp] theorem raise_xoutcome (d : Diag) : (raise d s).xoutcome = s.xoutcome := rfl
@[simp] theorem raise_nextPoll (d : Diag) : (raise d s).nextPoll = s.nextPoll := rfl
@[simp] theorem raise_holdActive (d : Diag) : (raise d s).holdActive = s.holdActive := rfl
@[simp] theorem raise_holdCause (d : Diag) : (raise d s).holdCause = s.holdCause := rfl
@[simp] theorem raise_holdDeadline (d : Diag) : (raise d s).holdDeadline = s.holdDeadline := rfl
@[simp] theorem raise_cmdValid (d : Diag) : (raise d s).cmdValid = s.cmdValid := rfl
@[simp] theorem raise_cmdKind (d : Diag) : (raise d s).cmdKind = s.cmdKind := rfl
@[simp] theorem raise_cmdId (d : Diag) : (raise d s).cmdId = s.cmdId := rfl
@[simp] theorem raise_cmdInitiator (d : Diag) : (raise d s).cmdInitiator = s.cmdInitiator := rfl
@[simp] theorem raise_cmdDuration (d : Diag) : (raise d s).cmdDuration = s.cmdDuration := rfl
@[simp] theorem raise_hbLast (d : Diag) : (raise d s).hbLast = s.hbLast := rfl
@[simp] theorem raise_cfg (d : Diag) : (raise d s).cfg = s.cfg := rfl
@[simp] theorem raise_clock (d : Diag) : (raise d s).clock = s.clock := rfl
@[simp] theorem raise_sensorAnswers (d : Diag) : (raise d s).sensorAnswers = s.sensorAnswers := rfl
@[simp] theorem raise_pollAnswers (d : Diag) : (raise d s).pollAnswers = s.pollAnswers := rfl
@[simp] theorem raise_sendAnswers (d : Diag) : (raise d s).sendAnswers = s.sendAnswers := rfl
@[simp] theorem raise_requests (d : Diag) : (raise d s).requests = s.requests := rfl
@[simp] theorem raise_calls (d : Diag) : (raise d s).calls = s.calls ++ [.diag d] := rfl
@[simp] theorem raise_result (d : Diag) : (raise d s).result = s.result := rfl

/-! ### What an actuation (R13) leaves in each field -/

@[simp] theorem act_seq (a : Actuation) : (act a s).seq = s.seq := rfl
@[simp] theorem act_xstate (a : Actuation) : (act a s).xstate = s.xstate := rfl
@[simp] theorem act_xseq (a : Actuation) : (act a s).xseq = s.xseq := rfl
@[simp] theorem act_xdeadline (a : Actuation) : (act a s).xdeadline = s.xdeadline := rfl
@[simp] theorem act_xoutcome (a : Actuation) : (act a s).xoutcome = s.xoutcome := rfl
@[simp] theorem act_nextPoll (a : Actuation) : (act a s).nextPoll = s.nextPoll := rfl
@[simp] theorem act_holdActive (a : Actuation) : (act a s).holdActive = s.holdActive := rfl
@[simp] theorem act_holdCause (a : Actuation) : (act a s).holdCause = s.holdCause := rfl
@[simp] theorem act_holdDeadline (a : Actuation) : (act a s).holdDeadline = s.holdDeadline := rfl
@[simp] theorem act_cmdValid (a : Actuation) : (act a s).cmdValid = s.cmdValid := rfl
@[simp] theorem act_cmdKind (a : Actuation) : (act a s).cmdKind = s.cmdKind := rfl
@[simp] theorem act_cmdId (a : Actuation) : (act a s).cmdId = s.cmdId := rfl
@[simp] theorem act_cmdInitiator (a : Actuation) : (act a s).cmdInitiator = s.cmdInitiator := rfl
@[simp] theorem act_cmdDuration (a : Actuation) : (act a s).cmdDuration = s.cmdDuration := rfl
@[simp] theorem act_hbLast (a : Actuation) : (act a s).hbLast = s.hbLast := rfl
@[simp] theorem act_cfg (a : Actuation) : (act a s).cfg = s.cfg := rfl
@[simp] theorem act_clock (a : Actuation) : (act a s).clock = s.clock := rfl
@[simp] theorem act_sensorAnswers (a : Actuation) : (act a s).sensorAnswers = s.sensorAnswers := rfl
@[simp] theorem act_pollAnswers (a : Actuation) : (act a s).pollAnswers = s.pollAnswers := rfl
@[simp] theorem act_sendAnswers (a : Actuation) : (act a s).sendAnswers = s.sendAnswers := rfl
@[simp] theorem act_requests (a : Actuation) : (act a s).requests = s.requests := rfl
@[simp] theorem act_calls (a : Actuation) : (act a s).calls = s.calls ++ [.act a] := rfl
@[simp] theorem act_result (a : Actuation) : (act a s).result = s.result := rfl

/-! ### What a report (R13) leaves in each field -/

@[simp] theorem report_seq (o : XOutcome) : (report o s).seq = s.seq := rfl
@[simp] theorem report_xstate (o : XOutcome) : (report o s).xstate = s.xstate := rfl
@[simp] theorem report_xseq (o : XOutcome) : (report o s).xseq = s.xseq := rfl
@[simp] theorem report_xdeadline (o : XOutcome) : (report o s).xdeadline = s.xdeadline := rfl
@[simp] theorem report_xoutcome (o : XOutcome) : (report o s).xoutcome = s.xoutcome := rfl
@[simp] theorem report_nextPoll (o : XOutcome) : (report o s).nextPoll = s.nextPoll := rfl
@[simp] theorem report_holdActive (o : XOutcome) : (report o s).holdActive = s.holdActive := rfl
@[simp] theorem report_holdCause (o : XOutcome) : (report o s).holdCause = s.holdCause := rfl
@[simp] theorem report_holdDeadline (o : XOutcome) : (report o s).holdDeadline = s.holdDeadline := rfl
@[simp] theorem report_cmdValid (o : XOutcome) : (report o s).cmdValid = s.cmdValid := rfl
@[simp] theorem report_cmdKind (o : XOutcome) : (report o s).cmdKind = s.cmdKind := rfl
@[simp] theorem report_cmdId (o : XOutcome) : (report o s).cmdId = s.cmdId := rfl
@[simp] theorem report_cmdInitiator (o : XOutcome) : (report o s).cmdInitiator = s.cmdInitiator := rfl
@[simp] theorem report_cmdDuration (o : XOutcome) : (report o s).cmdDuration = s.cmdDuration := rfl
@[simp] theorem report_hbLast (o : XOutcome) : (report o s).hbLast = s.hbLast := rfl
@[simp] theorem report_cfg (o : XOutcome) : (report o s).cfg = s.cfg := rfl
@[simp] theorem report_clock (o : XOutcome) : (report o s).clock = s.clock := rfl
@[simp] theorem report_sensorAnswers (o : XOutcome) : (report o s).sensorAnswers = s.sensorAnswers := rfl
@[simp] theorem report_pollAnswers (o : XOutcome) : (report o s).pollAnswers = s.pollAnswers := rfl
@[simp] theorem report_sendAnswers (o : XOutcome) : (report o s).sendAnswers = s.sendAnswers := rfl
@[simp] theorem report_requests (o : XOutcome) : (report o s).requests = s.requests := rfl
@[simp] theorem report_calls (o : XOutcome) : (report o s).calls = s.calls ++ [.report o] := rfl
@[simp] theorem report_result (o : XOutcome) : (report o s).result = s.result := rfl

/-! ### What one `send` (R13) leaves in each field -/

@[simp] theorem send_seq (F : Bytes) : (send F s).2.seq = s.seq := rfl
@[simp] theorem send_xstate (F : Bytes) : (send F s).2.xstate = s.xstate := rfl
@[simp] theorem send_xseq (F : Bytes) : (send F s).2.xseq = s.xseq := rfl
@[simp] theorem send_xdeadline (F : Bytes) : (send F s).2.xdeadline = s.xdeadline := rfl
@[simp] theorem send_xoutcome (F : Bytes) : (send F s).2.xoutcome = s.xoutcome := rfl
@[simp] theorem send_nextPoll (F : Bytes) : (send F s).2.nextPoll = s.nextPoll := rfl
@[simp] theorem send_holdActive (F : Bytes) : (send F s).2.holdActive = s.holdActive := rfl
@[simp] theorem send_holdCause (F : Bytes) : (send F s).2.holdCause = s.holdCause := rfl
@[simp] theorem send_holdDeadline (F : Bytes) : (send F s).2.holdDeadline = s.holdDeadline := rfl
@[simp] theorem send_cmdValid (F : Bytes) : (send F s).2.cmdValid = s.cmdValid := rfl
@[simp] theorem send_cmdKind (F : Bytes) : (send F s).2.cmdKind = s.cmdKind := rfl
@[simp] theorem send_cmdId (F : Bytes) : (send F s).2.cmdId = s.cmdId := rfl
@[simp] theorem send_cmdInitiator (F : Bytes) : (send F s).2.cmdInitiator = s.cmdInitiator := rfl
@[simp] theorem send_cmdDuration (F : Bytes) : (send F s).2.cmdDuration = s.cmdDuration := rfl
@[simp] theorem send_hbLast (F : Bytes) : (send F s).2.hbLast = s.hbLast := rfl
@[simp] theorem send_cfg (F : Bytes) : (send F s).2.cfg = s.cfg := rfl
@[simp] theorem send_clock (F : Bytes) : (send F s).2.clock = s.clock := rfl
@[simp] theorem send_sensorAnswers (F : Bytes) : (send F s).2.sensorAnswers = s.sensorAnswers := rfl
@[simp] theorem send_pollAnswers (F : Bytes) : (send F s).2.pollAnswers = s.pollAnswers := rfl
@[simp] theorem send_sendAnswers (F : Bytes) : (send F s).2.sendAnswers = s.sendAnswers.tail := rfl
@[simp] theorem send_requests (F : Bytes) : (send F s).2.requests = s.requests := rfl
@[simp] theorem send_calls (F : Bytes) : (send F s).2.calls = s.calls ++ [.send F] := rfl
@[simp] theorem send_result (F : Bytes) : (send F s).2.result = s.result := rfl

/-! ### What `sensor_poll()` (R13) leaves in each field -/

@[simp] theorem sensorPoll_seq : (sensorPoll s).2.seq = s.seq := rfl
@[simp] theorem sensorPoll_xstate : (sensorPoll s).2.xstate = s.xstate := rfl
@[simp] theorem sensorPoll_xseq : (sensorPoll s).2.xseq = s.xseq := rfl
@[simp] theorem sensorPoll_xdeadline : (sensorPoll s).2.xdeadline = s.xdeadline := rfl
@[simp] theorem sensorPoll_xoutcome : (sensorPoll s).2.xoutcome = s.xoutcome := rfl
@[simp] theorem sensorPoll_nextPoll : (sensorPoll s).2.nextPoll = s.nextPoll := rfl
@[simp] theorem sensorPoll_holdActive : (sensorPoll s).2.holdActive = s.holdActive := rfl
@[simp] theorem sensorPoll_holdCause : (sensorPoll s).2.holdCause = s.holdCause := rfl
@[simp] theorem sensorPoll_holdDeadline : (sensorPoll s).2.holdDeadline = s.holdDeadline := rfl
@[simp] theorem sensorPoll_cmdValid : (sensorPoll s).2.cmdValid = s.cmdValid := rfl
@[simp] theorem sensorPoll_cmdKind : (sensorPoll s).2.cmdKind = s.cmdKind := rfl
@[simp] theorem sensorPoll_cmdId : (sensorPoll s).2.cmdId = s.cmdId := rfl
@[simp] theorem sensorPoll_cmdInitiator : (sensorPoll s).2.cmdInitiator = s.cmdInitiator := rfl
@[simp] theorem sensorPoll_cmdDuration : (sensorPoll s).2.cmdDuration = s.cmdDuration := rfl
@[simp] theorem sensorPoll_hbLast : (sensorPoll s).2.hbLast = s.hbLast := rfl
@[simp] theorem sensorPoll_cfg : (sensorPoll s).2.cfg = s.cfg := rfl
@[simp] theorem sensorPoll_clock : (sensorPoll s).2.clock = s.clock := rfl
@[simp] theorem sensorPoll_sensorAnswers : (sensorPoll s).2.sensorAnswers = s.sensorAnswers.tail := rfl
@[simp] theorem sensorPoll_pollAnswers : (sensorPoll s).2.pollAnswers = s.pollAnswers := rfl
@[simp] theorem sensorPoll_sendAnswers : (sensorPoll s).2.sendAnswers = s.sendAnswers := rfl
@[simp] theorem sensorPoll_requests : (sensorPoll s).2.requests = s.requests := rfl
@[simp] theorem sensorPoll_calls : (sensorPoll s).2.calls = s.calls := rfl
@[simp] theorem sensorPoll_result : (sensorPoll s).2.result = s.result := rfl

/-! ### What `poll()` (R13) leaves in each field -/

@[simp] theorem poll_seq : (poll s).2.seq = s.seq := rfl
@[simp] theorem poll_xstate : (poll s).2.xstate = s.xstate := rfl
@[simp] theorem poll_xseq : (poll s).2.xseq = s.xseq := rfl
@[simp] theorem poll_xdeadline : (poll s).2.xdeadline = s.xdeadline := rfl
@[simp] theorem poll_xoutcome : (poll s).2.xoutcome = s.xoutcome := rfl
@[simp] theorem poll_nextPoll : (poll s).2.nextPoll = s.nextPoll := rfl
@[simp] theorem poll_holdActive : (poll s).2.holdActive = s.holdActive := rfl
@[simp] theorem poll_holdCause : (poll s).2.holdCause = s.holdCause := rfl
@[simp] theorem poll_holdDeadline : (poll s).2.holdDeadline = s.holdDeadline := rfl
@[simp] theorem poll_cmdValid : (poll s).2.cmdValid = s.cmdValid := rfl
@[simp] theorem poll_cmdKind : (poll s).2.cmdKind = s.cmdKind := rfl
@[simp] theorem poll_cmdId : (poll s).2.cmdId = s.cmdId := rfl
@[simp] theorem poll_cmdInitiator : (poll s).2.cmdInitiator = s.cmdInitiator := rfl
@[simp] theorem poll_cmdDuration : (poll s).2.cmdDuration = s.cmdDuration := rfl
@[simp] theorem poll_hbLast : (poll s).2.hbLast = s.hbLast := rfl
@[simp] theorem poll_cfg : (poll s).2.cfg = s.cfg := rfl
@[simp] theorem poll_clock : (poll s).2.clock = s.clock := rfl
@[simp] theorem poll_sensorAnswers : (poll s).2.sensorAnswers = s.sensorAnswers := rfl
@[simp] theorem poll_pollAnswers : (poll s).2.pollAnswers = s.pollAnswers.tail := rfl
@[simp] theorem poll_sendAnswers : (poll s).2.sendAnswers = s.sendAnswers := rfl
@[simp] theorem poll_requests : (poll s).2.requests = s.requests := rfl
@[simp] theorem poll_calls : (poll s).2.calls = s.calls := rfl
@[simp] theorem poll_result : (poll s).2.result = s.result := rfl

/-! ### What the clock sample of a step (R13) leaves in each field -/

@[simp] theorem sampleClock_seq (now : Nat) : (sampleClock now s).seq = s.seq := rfl
@[simp] theorem sampleClock_xstate (now : Nat) : (sampleClock now s).xstate = s.xstate := rfl
@[simp] theorem sampleClock_xseq (now : Nat) : (sampleClock now s).xseq = s.xseq := rfl
@[simp] theorem sampleClock_xdeadline (now : Nat) : (sampleClock now s).xdeadline = s.xdeadline := rfl
@[simp] theorem sampleClock_xoutcome (now : Nat) : (sampleClock now s).xoutcome = s.xoutcome := rfl
@[simp] theorem sampleClock_nextPoll (now : Nat) : (sampleClock now s).nextPoll = s.nextPoll := rfl
@[simp] theorem sampleClock_holdActive (now : Nat) : (sampleClock now s).holdActive = s.holdActive := rfl
@[simp] theorem sampleClock_holdCause (now : Nat) : (sampleClock now s).holdCause = s.holdCause := rfl
@[simp] theorem sampleClock_holdDeadline (now : Nat) : (sampleClock now s).holdDeadline = s.holdDeadline := rfl
@[simp] theorem sampleClock_cmdValid (now : Nat) : (sampleClock now s).cmdValid = s.cmdValid := rfl
@[simp] theorem sampleClock_cmdKind (now : Nat) : (sampleClock now s).cmdKind = s.cmdKind := rfl
@[simp] theorem sampleClock_cmdId (now : Nat) : (sampleClock now s).cmdId = s.cmdId := rfl
@[simp] theorem sampleClock_cmdInitiator (now : Nat) : (sampleClock now s).cmdInitiator = s.cmdInitiator := rfl
@[simp] theorem sampleClock_cmdDuration (now : Nat) : (sampleClock now s).cmdDuration = s.cmdDuration := rfl
@[simp] theorem sampleClock_hbLast (now : Nat) : (sampleClock now s).hbLast = s.hbLast := rfl
@[simp] theorem sampleClock_cfg (now : Nat) : (sampleClock now s).cfg = s.cfg := rfl
@[simp] theorem sampleClock_clock (now : Nat) : (sampleClock now s).clock = now := rfl
@[simp] theorem sampleClock_sensorAnswers (now : Nat) : (sampleClock now s).sensorAnswers = s.sensorAnswers := rfl
@[simp] theorem sampleClock_pollAnswers (now : Nat) : (sampleClock now s).pollAnswers = s.pollAnswers := rfl
@[simp] theorem sampleClock_sendAnswers (now : Nat) : (sampleClock now s).sendAnswers = s.sendAnswers := rfl
@[simp] theorem sampleClock_requests (now : Nat) : (sampleClock now s).requests = s.requests := rfl
@[simp] theorem sampleClock_calls (now : Nat) : (sampleClock now s).calls = s.calls := rfl
@[simp] theorem sampleClock_result (now : Nat) : (sampleClock now s).result = s.result := rfl

/-! ### What a returned value (R207) leaves in each field -/

@[simp] theorem returnValue_seq (v : Value) : (returnValue v s).seq = s.seq := rfl
@[simp] theorem returnValue_xstate (v : Value) : (returnValue v s).xstate = s.xstate := rfl
@[simp] theorem returnValue_xseq (v : Value) : (returnValue v s).xseq = s.xseq := rfl
@[simp] theorem returnValue_xdeadline (v : Value) : (returnValue v s).xdeadline = s.xdeadline := rfl
@[simp] theorem returnValue_xoutcome (v : Value) : (returnValue v s).xoutcome = s.xoutcome := rfl
@[simp] theorem returnValue_nextPoll (v : Value) : (returnValue v s).nextPoll = s.nextPoll := rfl
@[simp] theorem returnValue_holdActive (v : Value) : (returnValue v s).holdActive = s.holdActive := rfl
@[simp] theorem returnValue_holdCause (v : Value) : (returnValue v s).holdCause = s.holdCause := rfl
@[simp] theorem returnValue_holdDeadline (v : Value) : (returnValue v s).holdDeadline = s.holdDeadline := rfl
@[simp] theorem returnValue_cmdValid (v : Value) : (returnValue v s).cmdValid = s.cmdValid := rfl
@[simp] theorem returnValue_cmdKind (v : Value) : (returnValue v s).cmdKind = s.cmdKind := rfl
@[simp] theorem returnValue_cmdId (v : Value) : (returnValue v s).cmdId = s.cmdId := rfl
@[simp] theorem returnValue_cmdInitiator (v : Value) : (returnValue v s).cmdInitiator = s.cmdInitiator := rfl
@[simp] theorem returnValue_cmdDuration (v : Value) : (returnValue v s).cmdDuration = s.cmdDuration := rfl
@[simp] theorem returnValue_hbLast (v : Value) : (returnValue v s).hbLast = s.hbLast := rfl
@[simp] theorem returnValue_cfg (v : Value) : (returnValue v s).cfg = s.cfg := rfl
@[simp] theorem returnValue_clock (v : Value) : (returnValue v s).clock = s.clock := rfl
@[simp] theorem returnValue_sensorAnswers (v : Value) : (returnValue v s).sensorAnswers = s.sensorAnswers := rfl
@[simp] theorem returnValue_pollAnswers (v : Value) : (returnValue v s).pollAnswers = s.pollAnswers := rfl
@[simp] theorem returnValue_sendAnswers (v : Value) : (returnValue v s).sendAnswers = s.sendAnswers := rfl
@[simp] theorem returnValue_requests (v : Value) : (returnValue v s).requests = s.requests := rfl
@[simp] theorem returnValue_calls (v : Value) : (returnValue v s).calls = s.calls := rfl
@[simp] theorem returnValue_result (v : Value) : (returnValue v s).result = some v := rfl

/-! ### What starting a hold (R142, R167) leaves in each field -/

@[simp] theorem startHold_seq (k : HoldCause) (d : Nat) : (startHold k d s).seq = s.seq := rfl
@[simp] theorem startHold_xstate (k : HoldCause) (d : Nat) : (startHold k d s).xstate = s.xstate := rfl
@[simp] theorem startHold_xseq (k : HoldCause) (d : Nat) : (startHold k d s).xseq = s.xseq := rfl
@[simp] theorem startHold_xdeadline (k : HoldCause) (d : Nat) : (startHold k d s).xdeadline = s.xdeadline := rfl
@[simp] theorem startHold_xoutcome (k : HoldCause) (d : Nat) : (startHold k d s).xoutcome = s.xoutcome := rfl
@[simp] theorem startHold_nextPoll (k : HoldCause) (d : Nat) : (startHold k d s).nextPoll = s.nextPoll := rfl
@[simp] theorem startHold_holdActive (k : HoldCause) (d : Nat) : (startHold k d s).holdActive = true := rfl
@[simp] theorem startHold_holdCause (k : HoldCause) (d : Nat) : (startHold k d s).holdCause = k := rfl
@[simp] theorem startHold_holdDeadline (k : HoldCause) (d : Nat) : (startHold k d s).holdDeadline = d := rfl
@[simp] theorem startHold_cmdValid (k : HoldCause) (d : Nat) : (startHold k d s).cmdValid = s.cmdValid := rfl
@[simp] theorem startHold_cmdKind (k : HoldCause) (d : Nat) : (startHold k d s).cmdKind = s.cmdKind := rfl
@[simp] theorem startHold_cmdId (k : HoldCause) (d : Nat) : (startHold k d s).cmdId = s.cmdId := rfl
@[simp] theorem startHold_cmdInitiator (k : HoldCause) (d : Nat) : (startHold k d s).cmdInitiator = s.cmdInitiator := rfl
@[simp] theorem startHold_cmdDuration (k : HoldCause) (d : Nat) : (startHold k d s).cmdDuration = s.cmdDuration := rfl
@[simp] theorem startHold_hbLast (k : HoldCause) (d : Nat) : (startHold k d s).hbLast = s.hbLast := rfl
@[simp] theorem startHold_cfg (k : HoldCause) (d : Nat) : (startHold k d s).cfg = s.cfg := rfl
@[simp] theorem startHold_clock (k : HoldCause) (d : Nat) : (startHold k d s).clock = s.clock := rfl
@[simp] theorem startHold_sensorAnswers (k : HoldCause) (d : Nat) : (startHold k d s).sensorAnswers = s.sensorAnswers := rfl
@[simp] theorem startHold_pollAnswers (k : HoldCause) (d : Nat) : (startHold k d s).pollAnswers = s.pollAnswers := rfl
@[simp] theorem startHold_sendAnswers (k : HoldCause) (d : Nat) : (startHold k d s).sendAnswers = s.sendAnswers := rfl
@[simp] theorem startHold_requests (k : HoldCause) (d : Nat) : (startHold k d s).requests = s.requests := rfl
@[simp] theorem startHold_calls (k : HoldCause) (d : Nat) : (startHold k d s).calls = s.calls := rfl
@[simp] theorem startHold_result (k : HoldCause) (d : Nat) : (startHold k d s).result = s.result := rfl

/-! ### What ending a hold (R146) leaves in each field -/

@[simp] theorem endHold_seq : (endHold s).seq = s.seq := rfl
@[simp] theorem endHold_xstate : (endHold s).xstate = s.xstate := rfl
@[simp] theorem endHold_xseq : (endHold s).xseq = s.xseq := rfl
@[simp] theorem endHold_xdeadline : (endHold s).xdeadline = s.xdeadline := rfl
@[simp] theorem endHold_xoutcome : (endHold s).xoutcome = s.xoutcome := rfl
@[simp] theorem endHold_nextPoll : (endHold s).nextPoll = s.nextPoll := rfl
@[simp] theorem endHold_holdActive : (endHold s).holdActive = false := rfl
@[simp] theorem endHold_holdCause : (endHold s).holdCause = .grant := rfl
@[simp] theorem endHold_holdDeadline : (endHold s).holdDeadline = 0 := rfl
@[simp] theorem endHold_cmdValid : (endHold s).cmdValid = s.cmdValid := rfl
@[simp] theorem endHold_cmdKind : (endHold s).cmdKind = s.cmdKind := rfl
@[simp] theorem endHold_cmdId : (endHold s).cmdId = s.cmdId := rfl
@[simp] theorem endHold_cmdInitiator : (endHold s).cmdInitiator = s.cmdInitiator := rfl
@[simp] theorem endHold_cmdDuration : (endHold s).cmdDuration = s.cmdDuration := rfl
@[simp] theorem endHold_hbLast : (endHold s).hbLast = s.hbLast := rfl
@[simp] theorem endHold_cfg : (endHold s).cfg = s.cfg := rfl
@[simp] theorem endHold_clock : (endHold s).clock = s.clock := rfl
@[simp] theorem endHold_sensorAnswers : (endHold s).sensorAnswers = s.sensorAnswers := rfl
@[simp] theorem endHold_pollAnswers : (endHold s).pollAnswers = s.pollAnswers := rfl
@[simp] theorem endHold_sendAnswers : (endHold s).sendAnswers = s.sendAnswers := rfl
@[simp] theorem endHold_requests : (endHold s).requests = s.requests := rfl
@[simp] theorem endHold_calls : (endHold s).calls = s.calls := rfl
@[simp] theorem endHold_result : (endHold s).result = s.result := rfl

/-! ### What filling the command record (R167, R168) leaves in each field -/

@[simp] theorem setCommand_seq (k : CmdKind) (cid ini : Bytes) (d : Nat) : (setCommand k cid ini d s).seq = s.seq := rfl
@[simp] theorem setCommand_xstate (k : CmdKind) (cid ini : Bytes) (d : Nat) : (setCommand k cid ini d s).xstate = s.xstate := rfl
@[simp] theorem setCommand_xseq (k : CmdKind) (cid ini : Bytes) (d : Nat) : (setCommand k cid ini d s).xseq = s.xseq := rfl
@[simp] theorem setCommand_xdeadline (k : CmdKind) (cid ini : Bytes) (d : Nat) : (setCommand k cid ini d s).xdeadline = s.xdeadline := rfl
@[simp] theorem setCommand_xoutcome (k : CmdKind) (cid ini : Bytes) (d : Nat) : (setCommand k cid ini d s).xoutcome = s.xoutcome := rfl
@[simp] theorem setCommand_nextPoll (k : CmdKind) (cid ini : Bytes) (d : Nat) : (setCommand k cid ini d s).nextPoll = s.nextPoll := rfl
@[simp] theorem setCommand_holdActive (k : CmdKind) (cid ini : Bytes) (d : Nat) : (setCommand k cid ini d s).holdActive = s.holdActive := rfl
@[simp] theorem setCommand_holdCause (k : CmdKind) (cid ini : Bytes) (d : Nat) : (setCommand k cid ini d s).holdCause = s.holdCause := rfl
@[simp] theorem setCommand_holdDeadline (k : CmdKind) (cid ini : Bytes) (d : Nat) : (setCommand k cid ini d s).holdDeadline = s.holdDeadline := rfl
@[simp] theorem setCommand_cmdValid (k : CmdKind) (cid ini : Bytes) (d : Nat) : (setCommand k cid ini d s).cmdValid = true := rfl
@[simp] theorem setCommand_cmdKind (k : CmdKind) (cid ini : Bytes) (d : Nat) : (setCommand k cid ini d s).cmdKind = k := rfl
@[simp] theorem setCommand_cmdId (k : CmdKind) (cid ini : Bytes) (d : Nat) : (setCommand k cid ini d s).cmdId = cid := rfl
@[simp] theorem setCommand_cmdInitiator (k : CmdKind) (cid ini : Bytes) (d : Nat) : (setCommand k cid ini d s).cmdInitiator = ini := rfl
@[simp] theorem setCommand_cmdDuration (k : CmdKind) (cid ini : Bytes) (d : Nat) : (setCommand k cid ini d s).cmdDuration = d := rfl
@[simp] theorem setCommand_hbLast (k : CmdKind) (cid ini : Bytes) (d : Nat) : (setCommand k cid ini d s).hbLast = s.hbLast := rfl
@[simp] theorem setCommand_cfg (k : CmdKind) (cid ini : Bytes) (d : Nat) : (setCommand k cid ini d s).cfg = s.cfg := rfl
@[simp] theorem setCommand_clock (k : CmdKind) (cid ini : Bytes) (d : Nat) : (setCommand k cid ini d s).clock = s.clock := rfl
@[simp] theorem setCommand_sensorAnswers (k : CmdKind) (cid ini : Bytes) (d : Nat) : (setCommand k cid ini d s).sensorAnswers = s.sensorAnswers := rfl
@[simp] theorem setCommand_pollAnswers (k : CmdKind) (cid ini : Bytes) (d : Nat) : (setCommand k cid ini d s).pollAnswers = s.pollAnswers := rfl
@[simp] theorem setCommand_sendAnswers (k : CmdKind) (cid ini : Bytes) (d : Nat) : (setCommand k cid ini d s).sendAnswers = s.sendAnswers := rfl
@[simp] theorem setCommand_requests (k : CmdKind) (cid ini : Bytes) (d : Nat) : (setCommand k cid ini d s).requests = s.requests := rfl
@[simp] theorem setCommand_calls (k : CmdKind) (cid ini : Bytes) (d : Nat) : (setCommand k cid ini d s).calls = s.calls := rfl
@[simp] theorem setCommand_result (k : CmdKind) (cid ini : Bytes) (d : Nat) : (setCommand k cid ini d s).result = s.result := rfl

/-! ### What `CMD_CLEAR` (R172) leaves in each field -/

@[simp] theorem cmdClear_seq : (cmdClear s).seq = s.seq := rfl
@[simp] theorem cmdClear_xstate : (cmdClear s).xstate = s.xstate := rfl
@[simp] theorem cmdClear_xseq : (cmdClear s).xseq = s.xseq := rfl
@[simp] theorem cmdClear_xdeadline : (cmdClear s).xdeadline = s.xdeadline := rfl
@[simp] theorem cmdClear_xoutcome : (cmdClear s).xoutcome = s.xoutcome := rfl
@[simp] theorem cmdClear_nextPoll : (cmdClear s).nextPoll = s.nextPoll := rfl
@[simp] theorem cmdClear_holdActive : (cmdClear s).holdActive = s.holdActive := rfl
@[simp] theorem cmdClear_holdCause : (cmdClear s).holdCause = s.holdCause := rfl
@[simp] theorem cmdClear_holdDeadline : (cmdClear s).holdDeadline = s.holdDeadline := rfl
@[simp] theorem cmdClear_cmdValid : (cmdClear s).cmdValid = false := rfl
@[simp] theorem cmdClear_cmdKind : (cmdClear s).cmdKind = .unlock := rfl
@[simp] theorem cmdClear_cmdId : (cmdClear s).cmdId = [] := rfl
@[simp] theorem cmdClear_cmdInitiator : (cmdClear s).cmdInitiator = [] := rfl
@[simp] theorem cmdClear_cmdDuration : (cmdClear s).cmdDuration = 0 := rfl
@[simp] theorem cmdClear_hbLast : (cmdClear s).hbLast = s.hbLast := rfl
@[simp] theorem cmdClear_cfg : (cmdClear s).cfg = s.cfg := rfl
@[simp] theorem cmdClear_clock : (cmdClear s).clock = s.clock := rfl
@[simp] theorem cmdClear_sensorAnswers : (cmdClear s).sensorAnswers = s.sensorAnswers := rfl
@[simp] theorem cmdClear_pollAnswers : (cmdClear s).pollAnswers = s.pollAnswers := rfl
@[simp] theorem cmdClear_sendAnswers : (cmdClear s).sendAnswers = s.sendAnswers := rfl
@[simp] theorem cmdClear_requests : (cmdClear s).requests = s.requests := rfl
@[simp] theorem cmdClear_calls : (cmdClear s).calls = s.calls := rfl
@[simp] theorem cmdClear_result : (cmdClear s).result = s.result := rfl

/-! ### What opening an exchange (R138) leaves in each field -/

@[simp] theorem openExchange_seq (now : Nat) (q : BitVec 16) : (openExchange now q s).seq = s.seq := rfl
@[simp] theorem openExchange_xstate (now : Nat) (q : BitVec 16) : (openExchange now q s).xstate = .awaitingDecision := rfl
@[simp] theorem openExchange_xseq (now : Nat) (q : BitVec 16) : (openExchange now q s).xseq = q := rfl
@[simp] theorem openExchange_xdeadline (now : Nat) (q : BitVec 16) : (openExchange now q s).xdeadline = now + 12000 := rfl
@[simp] theorem openExchange_xoutcome (now : Nat) (q : BitVec 16) : (openExchange now q s).xoutcome = .pending := rfl
@[simp] theorem openExchange_nextPoll (now : Nat) (q : BitVec 16) : (openExchange now q s).nextPoll = now := rfl
@[simp] theorem openExchange_holdActive (now : Nat) (q : BitVec 16) : (openExchange now q s).holdActive = s.holdActive := rfl
@[simp] theorem openExchange_holdCause (now : Nat) (q : BitVec 16) : (openExchange now q s).holdCause = s.holdCause := rfl
@[simp] theorem openExchange_holdDeadline (now : Nat) (q : BitVec 16) : (openExchange now q s).holdDeadline = s.holdDeadline := rfl
@[simp] theorem openExchange_cmdValid (now : Nat) (q : BitVec 16) : (openExchange now q s).cmdValid = s.cmdValid := rfl
@[simp] theorem openExchange_cmdKind (now : Nat) (q : BitVec 16) : (openExchange now q s).cmdKind = s.cmdKind := rfl
@[simp] theorem openExchange_cmdId (now : Nat) (q : BitVec 16) : (openExchange now q s).cmdId = s.cmdId := rfl
@[simp] theorem openExchange_cmdInitiator (now : Nat) (q : BitVec 16) : (openExchange now q s).cmdInitiator = s.cmdInitiator := rfl
@[simp] theorem openExchange_cmdDuration (now : Nat) (q : BitVec 16) : (openExchange now q s).cmdDuration = s.cmdDuration := rfl
@[simp] theorem openExchange_hbLast (now : Nat) (q : BitVec 16) : (openExchange now q s).hbLast = s.hbLast := rfl
@[simp] theorem openExchange_cfg (now : Nat) (q : BitVec 16) : (openExchange now q s).cfg = s.cfg := rfl
@[simp] theorem openExchange_clock (now : Nat) (q : BitVec 16) : (openExchange now q s).clock = s.clock := rfl
@[simp] theorem openExchange_sensorAnswers (now : Nat) (q : BitVec 16) : (openExchange now q s).sensorAnswers = s.sensorAnswers := rfl
@[simp] theorem openExchange_pollAnswers (now : Nat) (q : BitVec 16) : (openExchange now q s).pollAnswers = s.pollAnswers := rfl
@[simp] theorem openExchange_sendAnswers (now : Nat) (q : BitVec 16) : (openExchange now q s).sendAnswers = s.sendAnswers := rfl
@[simp] theorem openExchange_requests (now : Nat) (q : BitVec 16) : (openExchange now q s).requests = s.requests := rfl
@[simp] theorem openExchange_calls (now : Nat) (q : BitVec 16) : (openExchange now q s).calls = s.calls := rfl
@[simp] theorem openExchange_result (now : Nat) (q : BitVec 16) : (openExchange now q s).result = s.result := rfl

/-! ### What resolving an exchange (R142 to R144) leaves in each field -/

@[simp] theorem resolve_seq (o : XOutcome) (x : XState) : (resolve o x s).seq = s.seq := rfl
@[simp] theorem resolve_xstate (o : XOutcome) (x : XState) : (resolve o x s).xstate = x := rfl
@[simp] theorem resolve_xseq (o : XOutcome) (x : XState) : (resolve o x s).xseq = s.xseq := rfl
@[simp] theorem resolve_xdeadline (o : XOutcome) (x : XState) : (resolve o x s).xdeadline = s.xdeadline := rfl
@[simp] theorem resolve_xoutcome (o : XOutcome) (x : XState) : (resolve o x s).xoutcome = o := rfl
@[simp] theorem resolve_nextPoll (o : XOutcome) (x : XState) : (resolve o x s).nextPoll = s.nextPoll := rfl
@[simp] theorem resolve_holdActive (o : XOutcome) (x : XState) : (resolve o x s).holdActive = s.holdActive := rfl
@[simp] theorem resolve_holdCause (o : XOutcome) (x : XState) : (resolve o x s).holdCause = s.holdCause := rfl
@[simp] theorem resolve_holdDeadline (o : XOutcome) (x : XState) : (resolve o x s).holdDeadline = s.holdDeadline := rfl
@[simp] theorem resolve_cmdValid (o : XOutcome) (x : XState) : (resolve o x s).cmdValid = s.cmdValid := rfl
@[simp] theorem resolve_cmdKind (o : XOutcome) (x : XState) : (resolve o x s).cmdKind = s.cmdKind := rfl
@[simp] theorem resolve_cmdId (o : XOutcome) (x : XState) : (resolve o x s).cmdId = s.cmdId := rfl
@[simp] theorem resolve_cmdInitiator (o : XOutcome) (x : XState) : (resolve o x s).cmdInitiator = s.cmdInitiator := rfl
@[simp] theorem resolve_cmdDuration (o : XOutcome) (x : XState) : (resolve o x s).cmdDuration = s.cmdDuration := rfl
@[simp] theorem resolve_hbLast (o : XOutcome) (x : XState) : (resolve o x s).hbLast = s.hbLast := rfl
@[simp] theorem resolve_cfg (o : XOutcome) (x : XState) : (resolve o x s).cfg = s.cfg := rfl
@[simp] theorem resolve_clock (o : XOutcome) (x : XState) : (resolve o x s).clock = s.clock := rfl
@[simp] theorem resolve_sensorAnswers (o : XOutcome) (x : XState) : (resolve o x s).sensorAnswers = s.sensorAnswers := rfl
@[simp] theorem resolve_pollAnswers (o : XOutcome) (x : XState) : (resolve o x s).pollAnswers = s.pollAnswers := rfl
@[simp] theorem resolve_sendAnswers (o : XOutcome) (x : XState) : (resolve o x s).sendAnswers = s.sendAnswers := rfl
@[simp] theorem resolve_requests (o : XOutcome) (x : XState) : (resolve o x s).requests = s.requests := rfl
@[simp] theorem resolve_calls (o : XOutcome) (x : XState) : (resolve o x s).calls = s.calls := rfl
@[simp] theorem resolve_result (o : XOutcome) (x : XState) : (resolve o x s).result = s.result := rfl

/-! ### What `X_CLOSE` (R145) leaves in each field -/

@[simp] theorem xClose_seq : (xClose s).seq = s.seq := rfl
@[simp] theorem xClose_xstate : (xClose s).xstate = .idle := rfl
@[simp] theorem xClose_xseq : (xClose s).xseq = 0#16 := rfl
@[simp] theorem xClose_xdeadline : (xClose s).xdeadline = 0 := rfl
@[simp] theorem xClose_xoutcome : (xClose s).xoutcome = .pending := rfl
@[simp] theorem xClose_nextPoll : (xClose s).nextPoll = 0 := rfl
@[simp] theorem xClose_holdActive : (xClose s).holdActive = s.holdActive := rfl
@[simp] theorem xClose_holdCause : (xClose s).holdCause = s.holdCause := rfl
@[simp] theorem xClose_holdDeadline : (xClose s).holdDeadline = s.holdDeadline := rfl
@[simp] theorem xClose_cmdValid : (xClose s).cmdValid = s.cmdValid := rfl
@[simp] theorem xClose_cmdKind : (xClose s).cmdKind = s.cmdKind := rfl
@[simp] theorem xClose_cmdId : (xClose s).cmdId = s.cmdId := rfl
@[simp] theorem xClose_cmdInitiator : (xClose s).cmdInitiator = s.cmdInitiator := rfl
@[simp] theorem xClose_cmdDuration : (xClose s).cmdDuration = s.cmdDuration := rfl
@[simp] theorem xClose_hbLast : (xClose s).hbLast = s.hbLast := rfl
@[simp] theorem xClose_cfg : (xClose s).cfg = s.cfg := rfl
@[simp] theorem xClose_clock : (xClose s).clock = s.clock := rfl
@[simp] theorem xClose_sensorAnswers : (xClose s).sensorAnswers = s.sensorAnswers := rfl
@[simp] theorem xClose_pollAnswers : (xClose s).pollAnswers = s.pollAnswers := rfl
@[simp] theorem xClose_sendAnswers : (xClose s).sendAnswers = s.sendAnswers := rfl
@[simp] theorem xClose_requests : (xClose s).requests = s.requests := rfl
@[simp] theorem xClose_calls : (xClose s).calls = s.calls := rfl
@[simp] theorem xClose_result : (xClose s).result = s.result := rfl

/-! ### What one frame sent (R123) leaves in each field -/

@[simp] theorem afterSend_seq (F : Bytes) : (afterSend s F).seq = s.seq + 1#16 := rfl
@[simp] theorem afterSend_xstate (F : Bytes) : (afterSend s F).xstate = s.xstate := rfl
@[simp] theorem afterSend_xseq (F : Bytes) : (afterSend s F).xseq = s.xseq := rfl
@[simp] theorem afterSend_xdeadline (F : Bytes) : (afterSend s F).xdeadline = s.xdeadline := rfl
@[simp] theorem afterSend_xoutcome (F : Bytes) : (afterSend s F).xoutcome = s.xoutcome := rfl
@[simp] theorem afterSend_nextPoll (F : Bytes) : (afterSend s F).nextPoll = s.nextPoll := rfl
@[simp] theorem afterSend_holdActive (F : Bytes) : (afterSend s F).holdActive = s.holdActive := rfl
@[simp] theorem afterSend_holdCause (F : Bytes) : (afterSend s F).holdCause = s.holdCause := rfl
@[simp] theorem afterSend_holdDeadline (F : Bytes) : (afterSend s F).holdDeadline = s.holdDeadline := rfl
@[simp] theorem afterSend_cmdValid (F : Bytes) : (afterSend s F).cmdValid = s.cmdValid := rfl
@[simp] theorem afterSend_cmdKind (F : Bytes) : (afterSend s F).cmdKind = s.cmdKind := rfl
@[simp] theorem afterSend_cmdId (F : Bytes) : (afterSend s F).cmdId = s.cmdId := rfl
@[simp] theorem afterSend_cmdInitiator (F : Bytes) : (afterSend s F).cmdInitiator = s.cmdInitiator := rfl
@[simp] theorem afterSend_cmdDuration (F : Bytes) : (afterSend s F).cmdDuration = s.cmdDuration := rfl
@[simp] theorem afterSend_hbLast (F : Bytes) : (afterSend s F).hbLast = s.hbLast := rfl
@[simp] theorem afterSend_cfg (F : Bytes) : (afterSend s F).cfg = s.cfg := rfl
@[simp] theorem afterSend_clock (F : Bytes) : (afterSend s F).clock = s.clock := rfl
@[simp] theorem afterSend_sensorAnswers (F : Bytes) : (afterSend s F).sensorAnswers = s.sensorAnswers := rfl
@[simp] theorem afterSend_pollAnswers (F : Bytes) : (afterSend s F).pollAnswers = s.pollAnswers := rfl
@[simp] theorem afterSend_sendAnswers (F : Bytes) : (afterSend s F).sendAnswers = s.sendAnswers.tail := rfl
@[simp] theorem afterSend_requests (F : Bytes) : (afterSend s F).requests = s.requests := rfl
@[simp] theorem afterSend_calls (F : Bytes) : (afterSend s F).calls = s.calls ++ sendCalls s F := rfl
@[simp] theorem afterSend_result (F : Bytes) : (afterSend s F).result = s.result := rfl

/-! ### The answers the environment gives -/

@[simp] theorem send_answer (F : Bytes) : (send F s).1 = s.sendAnswers.headD .ok := rfl
@[simp] theorem sensorPoll_answer : (sensorPoll s).1 = s.sensorAnswers.headD none := rfl
@[simp] theorem poll_answer : (poll s).1 = s.pollAnswers.headD none := rfl

end Sys2Proof.Machine
end

