-- ==== Sys2Proof/Laws/Ops.lean ====
section
/-! SUPPORT. What the shared operations can do, said once: sending (spec 43_uplink_sender R122 to R126), and the relation
"only sends and makes calls" that every operation of the Uplink Sender satisfies. -/

namespace Sys2Proof.Machine

/-- `TX_FRAME`'s tail is exactly one send (R123). -/
theorem transmit_eq (F : Bytes) (s : State) : transmit F s = afterSend s F := by
  cases h : s.sendAnswers.headD .ok <;>
    simp only [transmit, send, afterSend, sendCalls, h, raise, emit, reduceCtorEq, if_true, if_false,
      List.append_assoc, List.cons_append, List.nil_append]

theorem classPayload_eq_some {t : Nibble} {p : Bytes} (h : t = Config.mtScan → p.length ≤ Config.idMax) :
    classPayload t p = some (if t = Config.mtScan then p else p.take Config.textMax) := by
  by_cases ht : t = Config.mtScan
  · simp [classPayload, ht, Nat.not_lt.mpr (h ht)]
  · simp [classPayload, ht]

/-- A payload within its class's limit is carried whole (R93). -/
theorem classPayload_within {t : Nibble} {p : Bytes} (h1 : t = Config.mtScan → p.length ≤ 10)
    (h2 : t ≠ Config.mtScan → p.length ≤ 16) : classPayload t p = some p := by
  rw [classPayload_eq_some h1]
  by_cases ht : t = Config.mtScan
  · simp [ht]
  · simp [ht, List.take_of_length_le (show p.length ≤ Config.textMax from h2 ht)]

/-- The payload `ENC` carries is at most 16 bytes in either class (R93). -/
theorem classPayload_length {t : Nibble} {p P : Bytes} (h : classPayload t p = some P) : P.length ≤ 16 := by
  unfold classPayload at h
  split at h
  · split at h
    · cases h
    · next hle =>
      cases h
      exact Nat.le_trans (Nat.le_of_not_lt hle) (by decide)
  · cases h; rw [List.length_take]; exact Nat.min_le_left _ _

/-- `TX_FRAME` sends the built frame whenever its operand condition holds (R123). -/
theorem txFrame_eq (now : Nat) (t : Nibble) (p : Bytes) (s : State)
    (h : t = Config.mtScan → p.length ≤ Config.idMax) :
    txFrame now t p s = afterSend s (builtFrame s now t p) := by
  simp only [txFrame, builtFrame, enc, encWith, classPayload_eq_some h, transmit_eq]

theorem sendStatus_eq (now : Nat) (text : Bytes) (s : State) :
    sendStatus now text s = afterSend s (builtFrame s now Config.mtStatus text) :=
  txFrame_eq now Config.mtStatus text s (fun h => absurd h (by decide))

theorem sendAck_eq (now : Nat) (cid : Bytes) (flag : Byte) (text : Bytes) (s : State)
    (h : s.cfg.mtAck ≠ 1#4) :
    sendAck now cid flag text s = afterSend s (builtFrame s now s.cfg.mtAck (ackText cid flag text)) :=
  txFrame_eq now s.cfg.mtAck _ s (fun e => absurd e h)

theorem sendScan_long (now : Nat) (id : Bytes) (s : State) (h : Config.idMax < id.length) :
    sendScan now id s = (.rejected, raise (.encodeRejected id.length) s) := by
  simp [sendScan, h]

theorem sendScan_short (now : Nat) (id : Bytes) (s : State) (h : id.length ≤ Config.idMax) :
    sendScan now id s = (.sent s.seq, afterSend s (builtFrame s now Config.mtScan id)) := by
  simp [sendScan, Nat.not_lt.mpr h, txFrame_eq now Config.mtScan id s (fun _ => h)]

/-- `TX_FRAME` either sends one frame or does nothing (R94, R123). -/
theorem txFrame_cases (now : Nat) (t : Nibble) (p : Bytes) (s : State) :
    txFrame now t p s = s ∨
      ∃ F, enc s.cfg t s.cfg.deviceType s.seq (timestampOf now) p = .frame F ∧
        txFrame now t p s = afterSend s F := by
  unfold txFrame
  split
  · exact .inl rfl
  · next F h => exact .inr ⟨F, h, transmit_eq F s⟩

/-- `UP_RECEIVE` raises exactly its checksum mismatch (R185). -/
theorem upReceiveRaises_eq (r : UpReceived) :
    upReceiveRaises r = if r = .checksumMismatch then some .checksumMismatch else none := by
  cases r <;> simp [upReceiveRaises]

/-- `t` is `s` but for `SEQ`, the answers used up and the calls made. -/
def OnlySends (s t : State) : Prop :=
  ∃ q a c, t = { s with seq := q, sendAnswers := a, calls := c }

theorem OnlySends.refl (s : State) : OnlySends s s := ⟨s.seq, s.sendAnswers, s.calls, rfl⟩

theorem OnlySends.trans {s t u : State} (h : OnlySends s t) (h' : OnlySends t u) : OnlySends s u := by
  obtain ⟨q, a, c, rfl⟩ := h
  obtain ⟨q', a', c', rfl⟩ := h'
  exact ⟨q', a', c', rfl⟩

/-- What sending leaves alone, as one fact the proofs cite. -/
theorem OnlySends.unchanged {s t : State} (h : OnlySends s t) :
    t = { s with seq := t.seq, sendAnswers := t.sendAnswers, calls := t.calls } := by
  obtain ⟨q, a, c, rfl⟩ := h
  rfl

theorem OnlySends.answers {s t : State} (h : OnlySends s t) :
    t.pollAnswers = s.pollAnswers ∧ t.sensorAnswers = s.sensorAnswers := by
  obtain ⟨q, a, c, rfl⟩ := h
  exact ⟨rfl, rfl⟩

theorem onlySends_emit (c : EnvCall) (s : State) : OnlySends s (emit c s) := ⟨_, _, _, rfl⟩

theorem onlySends_raise (d : Diag) (s : State) : OnlySends s (raise d s) := ⟨_, _, _, rfl⟩

theorem onlySends_txFrame (now : Nat) (t : Nibble) (p : Bytes) (s : State) : OnlySends s (txFrame now t p s) := by
  rcases txFrame_cases now t p s with h | ⟨F, -, h⟩ <;> rw [h]
  · exact OnlySends.refl s
  · exact ⟨_, _, _, rfl⟩

theorem onlySends_sendStatus (now : Nat) (text : Bytes) (s : State) : OnlySends s (sendStatus now text s) :=
  onlySends_txFrame _ _ _ _

theorem onlySends_sendAck (now : Nat) (cid : Bytes) (flag : Byte) (text : Bytes) (s : State) :
    OnlySends s (sendAck now cid flag text s) :=
  onlySends_txFrame _ _ _ _

theorem onlySends_sendScan (now : Nat) (id : Bytes) (s : State) : OnlySends s (sendScan now id s).2 := by
  unfold sendScan
  split
  · exact onlySends_raise _ _
  · exact onlySends_txFrame _ _ _ _

/-- The heartbeat either does nothing or sends once and records the time (R128). -/
theorem heartbeat_cases (now : Nat) (s : State) :
    heartbeat now s = s ∨ heartbeat now s = { sendStatus now s.cfg.heartbeatText s with hbLast := now } := by
  unfold heartbeat
  split
  · exact .inl rfl
  · split
    · exact .inr rfl
    · exact .inl rfl

end Sys2Proof.Machine
end

