-- ==== Sys2Proof/Laws/Parser.lean ====
section
/-! SUPPORT. Laws of the text parser: splitting and joining are inverse on fields without the delimiter, and the
range of the duration policy (spec 45_command_dispatcher R161, R165). -/

namespace Sys2Proof.Machine

theorem split_ne_nil (Q : Bytes) : split Q ≠ [] := by
  cases Q with
  | nil => simp [split]
  | cons b rest =>
    simp only [split]
    split
    · simp
    · cases h : split rest <;> simp [prependByte]

theorem split_colon (rest : Bytes) : split (Config.colon :: rest) = [] :: split rest := by
  simp [split]

theorem split_byte (b : Byte) (rest : Bytes) (h : b ≠ Config.colon) :
    split (b :: rest) = prependByte b (split rest) := by
  simp [split, h]

theorem joinFields_cons (f : Bytes) (rest : List Bytes) (h : rest ≠ []) :
    joinFields (f :: rest) = f ++ [Config.colon] ++ joinFields rest := by
  cases rest with
  | nil => exact absurd rfl h
  | cons g tail => rfl

theorem joinFields_prepend (b : Byte) (l : List Bytes) (h : l ≠ []) :
    joinFields (prependByte b l) = b :: joinFields l := by
  match l, h with
  | [f], _ => rfl
  | f :: g :: tail, _ => simp [prependByte, joinFields]

/-- Joining the fields gives back the text (R161). -/
theorem joinFields_split (Q : Bytes) : joinFields (split Q) = Q := by
  induction Q with
  | nil => rfl
  | cons b rest ih =>
    by_cases h : b = Config.colon
    · subst h
      rw [split_colon, joinFields_cons _ _ (split_ne_nil rest), ih]; rfl
    · rw [split_byte b rest h, joinFields_prepend b _ (split_ne_nil rest), ih]

/-- No field holds the delimiter (R77). -/
theorem colon_notMem_split (Q : Bytes) : ∀ f ∈ split Q, Config.colon ∉ f := by
  induction Q with
  | nil => simp [split]
  | cons b rest ih =>
    by_cases h : b = Config.colon
    · subst h
      rw [split_colon]
      simpa using ih
    · rw [split_byte b rest h]
      cases hs : split rest with
      | nil => exact absurd hs (split_ne_nil rest)
      | cons f tail =>
        rw [hs] at ih
        simp only [prependByte, List.mem_cons, forall_eq_or_imp] at ih ⊢
        exact ⟨fun hc => hc.elim (fun e => h e.symm) ih.1, ih.2⟩

/-- The number of fields is the delimiter count plus one (R161). -/
theorem split_length (Q : Bytes) : (split Q).length = Q.count Config.colon + 1 := by
  induction Q with
  | nil => rfl
  | cons b rest ih =>
    by_cases h : b = Config.colon
    · subst h
      rw [split_colon, List.length_cons, ih, List.count_cons_self]
    · rw [split_byte b rest h, List.count_cons_of_ne h, ← ih]
      cases hs : split rest with
      | nil => exact absurd hs (split_ne_nil rest)
      | cons f tail => rfl

theorem split_field (f : Bytes) (h : Config.colon ∉ f) : split f = [f] := by
  induction f with
  | nil => rfl
  | cons b rest ih =>
    simp only [List.mem_cons, not_or] at h
    rw [split_byte b rest (fun e => h.1 e.symm), ih h.2]; rfl

theorem split_append_colon (f rest : Bytes) (h : Config.colon ∉ f) :
    split (f ++ [Config.colon] ++ rest) = f :: split rest := by
  induction f with
  | nil => exact split_colon rest
  | cons b tail ih =>
    simp only [List.mem_cons, not_or] at h
    show split (b :: (tail ++ [Config.colon] ++ rest)) = _
    rw [split_byte b _ (fun e => h.1 e.symm), ih h.2]; rfl

/-- Splitting a joined list of delimiter-free fields gives the list back. -/
theorem split_joinFields (l : List Bytes) (hne : l ≠ []) (h : ∀ f ∈ l, Config.colon ∉ f) :
    split (joinFields l) = l := by
  induction l with
  | nil => exact absurd rfl hne
  | cons f rest ih =>
    simp only [List.mem_cons, forall_eq_or_imp] at h
    cases rest with
    | nil => exact split_field f h.1
    | cons g tail =>
      rw [joinFields_cons f (g :: tail) (by simp), split_append_colon f _ h.1, ih (by simp) h.2]

/-- The duration policy stays in the range R165 states. -/
theorem clampDuration_range (x : Option Nat) : 1000 ≤ clampDuration x ∧ clampDuration x ≤ 30000 := by
  cases x with
  | none => decide
  | some v =>
    simp only [clampDuration, Config.durMax, Config.durMin, Config.durDefault]
    by_cases h1 : 30000 < v
    · simp [h1]
    · by_cases h2 : v < 1000
      · simp [h1, h2]
      · simp [h1, h2]; omega

/-- A joined text is at least as long as its first field. -/
theorem joinFields_length_le (f : Bytes) (rest : List Bytes) : f.length ≤ (joinFields (f :: rest)).length := by
  cases rest with
  | nil => simp [joinFields]
  | cons g tail => rw [joinFields_cons f (g :: tail) (by simp)]; simp

/-- Every field of a split text is at most as long as the text (R24, decision D36). -/
theorem length_le_of_mem_split (Q f : Bytes) (h : f ∈ split Q) : f.length ≤ Q.length := by
  induction Q generalizing f with
  | nil => simp [split] at h; simp [h]
  | cons b rest ih =>
    by_cases hb : b = Config.colon
    · subst hb
      rw [split_colon, List.mem_cons] at h
      rcases h with rfl | h
      · simp
      · have := ih f h; simp; omega
    · rw [split_byte b rest hb] at h
      cases hs : split rest with
      | nil => exact absurd hs (split_ne_nil rest)
      | cons g tail =>
        rw [hs] at h ih
        simp only [prependByte, List.mem_cons] at h
        rcases h with rfl | h
        · have := ih g (by simp); simp; omega
        · have := ih f (by simp [h]); simp; omega

/-- Everything a parsed unlock says of its operands (R24, R165, R174). -/
theorem parseCmd_unlock (Q cid ini : Bytes) (d : Nat) (h : parseCmd Q = .unlock cid ini d) :
    cid.length ≤ Q.length ∧ ini.length ≤ Q.length ∧ 1000 ≤ d ∧ d ≤ 30000 := by
  unfold parseCmd at h
  simp only at h
  split at h
  · split at h
    · next hs =>
      cases h
      refine ⟨length_le_of_mem_split Q _ (by simp [hs]), length_le_of_mem_split Q _ (by simp [hs]), ?_⟩
      exact clampDuration_range _
    · cases h
    · cases h
  · split at h
    · split at h <;> cases h
    · cases h

theorem classify_unlock (c : Config) (Q cid ini : Bytes) (d : Nat) (h : classify c Q = .unlock cid ini d) :
    cid.length ≤ Q.length ∧ ini.length ≤ Q.length ∧ 1000 ≤ d ∧ d ≤ 30000 := by
  unfold classify at h
  split at h
  · cases h
  split at h
  · cases h
  · exact parseCmd_unlock Q cid ini d h

end Sys2Proof.Machine
end

