-- ==== Sys2Proof/Laws/Exchange.lean ====
section
/-! SUPPORT. Inversion lemmas of the Exchange State Machine and the dispatcher: everything `RX_PROCESS` and `LOOP_STEP`
can do (spec 44_exchange_fsm R136, R140), and which fields each transition leaves alone. -/

namespace Sys2Proof.Machine

theorem onlySends_act (a : Actuation) (s : State) : OnlySends s (act a s) := ⟨_, _, _, rfl⟩

theorem onlySends_report (o : XOutcome) (s : State) : OnlySends s (report o s) := ⟨_, _, _, rfl⟩

theorem onlySends_invalidUnlock (now : Nat) (cid : Bytes) (s : State) : OnlySends s (invalidUnlock now cid s) :=
  (onlySends_raise _ _).trans (onlySends_sendAck _ _ _ _ _)

theorem onlySends_invalidLock (s : State) : OnlySends s (invalidLock s) := onlySends_raise _ _

/-- A remote lock only sends, and leaves a cleared command record (R168). -/
theorem remoteLock_eq (now : Nat) (cid ini : Bytes) (s : State) :
    ∃ t, OnlySends s t ∧ remoteLock now cid ini s = cmdClear t := by
  obtain ⟨q, a, c, h⟩ := ((onlySends_act .closeGate (setCommand .lock cid ini 0 s)).trans
    (onlySends_sendAck now cid Config.ackOk s.cfg.ackTextLock _)).trans
      (onlySends_sendStatus now Config.statusClosed _)
  refine ⟨_, ⟨q, a, c, rfl⟩, ?_⟩
  exact (congrArg cmdClear h).trans rfl

/-- A grant only sends beside resolving the exchange and starting the hold (R142). -/
theorem xGrant_eq (now : Nat) (s : State) :
    ∃ t, OnlySends s t ∧ xGrant now s = startHold .grant (now + s.cfg.grantHold) (resolve .granted .granted t) := by
  obtain ⟨q, a, c, h⟩ := ((onlySends_report .granted (resolve .granted .granted s)).trans
    (onlySends_act .openGate _)).trans (onlySends_sendStatus now Config.statusOpen _)
  refine ⟨_, ⟨q, a, c, rfl⟩, ?_⟩
  unfold xGrant
  simp only
  rw [h]; rfl

/-- A hold's end only sends beside discarding the record its cause names and clearing the hold (R146). -/
theorem holdFinish_eq (now : Nat) (s : State) :
    ∃ t, OnlySends s t ∧ holdFinish now s =
      endHold (match s.holdCause with | .grant => xClose t | .unlock => cmdClear t) := by
  cases hc : s.holdCause with
  | grant =>
    refine ⟨_, (onlySends_act .closeGate s).trans (onlySends_sendStatus now Config.statusClosed _), ?_⟩
    simp only [holdFinish, act_holdCause, hc]
  | unlock =>
    refine ⟨_, ((onlySends_act .closeGate s).trans
      (onlySends_sendAck now s.cmdId Config.ackOk s.cfg.ackTextUnlock _)).trans
        (onlySends_sendStatus now Config.statusClosed _), ?_⟩
    simp only [holdFinish, act_holdCause, hc]; rfl

/-- Everything `RX_PROCESS` can do (R140): discard a buffer with one condition, resolve the exchange or call the
token stray, or dispatch a command whose fields fit the length byte. -/
theorem rxProcess_cases (now : Nat) (B : Bytes) (s : State) :
    (∃ d, rxProcess now B s = raise d s) ∨
    (s.xstate = .awaitingDecision ∧ rxProcess now B s = xGrant now s) ∨
    (s.xstate = .awaitingDecision ∧ rxProcess now B s = xDeny now s) ∨
    (∃ cid ini d, cid.length ≤ 255 ∧ ini.length ≤ 255 ∧ 1000 ≤ d ∧ d ≤ 30000 ∧
      rxProcess now B s = remoteUnlock now cid ini d s) ∨
    (∃ cid ini, rxProcess now B s = remoteLock now cid ini s) ∨
    (∃ cid, rxProcess now B s = invalidUnlock now cid s) := by
  cases hr : dnReceive s.cfg B with
  | malformed r => exact .inl ⟨.malformedFrame r, by simp only [rxProcess, hr]⟩
  | checksumMismatch => exact .inl ⟨.checksumMismatch, by simp only [rxProcess, hr]⟩
  | payload Q =>
    have hQ := dnReceive_payload_length s.cfg B Q hr
    have hx : rxProcess now B s = rxPayload now Q s := by simp only [rxProcess, hr]
    rw [hx]
    cases hc : classify s.cfg Q with
    | grantToken =>
      by_cases h : s.xstate = .awaitingDecision
      · exact .inr (.inl ⟨h, by simp [rxPayload, hc, onToken, h]⟩)
      · exact .inl ⟨.strayDecision .grant, by simp only [rxPayload, hc, onToken, h, if_false]⟩
    | denyToken =>
      by_cases h : s.xstate = .awaitingDecision
      · exact .inr (.inr (.inl ⟨h, by simp [rxPayload, hc, onToken, h]⟩))
      · exact .inl ⟨.strayDecision .deny, by simp only [rxPayload, hc, onToken, h, if_false]⟩
    | unlock cid ini d =>
      obtain ⟨h1, h2, h3, h4⟩ := classify_unlock s.cfg Q cid ini d hc
      exact .inr (.inr (.inr (.inl ⟨cid, ini, d, Nat.le_trans h1 hQ, Nat.le_trans h2 hQ, h3, h4, by
        simp only [rxPayload, hc]⟩)))
    | lock cid ini => exact .inr (.inr (.inr (.inr (.inl ⟨cid, ini, by simp only [rxPayload, hc]⟩))))
    | invalidUnlock cid => exact .inr (.inr (.inr (.inr (.inr ⟨cid, by simp only [rxPayload, hc]⟩))))
    | invalidLock => exact .inl ⟨.invalidCommandFormat .lock, by simp only [rxPayload, hc]; rfl⟩
    | notACommand => exact .inl ⟨.unrecognizedToken Q.length, by simp only [rxPayload, hc]⟩

/-- Everything `LOOP_STEP` can do (R136), with the state each operation starts from. -/
theorem loopStep_cases (now : Nat) (s : State) :
    (s.holdActive = true ∧ now < s.holdDeadline ∧ loopStep now s = sampleClock now s) ∨
    (s.holdActive = true ∧ s.holdDeadline ≤ now ∧ loopStep now s = holdFinish now (sampleClock now s)) ∨
    (s.holdActive = false ∧ s.xstate = .awaitingDecision ∧ s.xdeadline ≤ now ∧
      loopStep now s = xTimeout now (sampleClock now s)) ∨
    (s.holdActive = false ∧ s.xstate = .awaitingDecision ∧ now < s.xdeadline ∧ now < s.nextPoll ∧
      loopStep now s = sampleClock now s) ∨
    (s.holdActive = false ∧ s.xstate = .awaitingDecision ∧ now < s.xdeadline ∧ s.nextPoll ≤ now ∧
      s.pollAnswers.headD none = none ∧
      loopStep now s = { sampleClock now s with nextPoll := now + s.cfg.pollInterval
                                                pollAnswers := s.pollAnswers.tail }) ∨
    (∃ B, s.holdActive = false ∧ s.xstate = .awaitingDecision ∧ now < s.xdeadline ∧ s.nextPoll ≤ now ∧
      s.pollAnswers.headD none = some B ∧
      loopStep now s = rxProcess now B { sampleClock now s with nextPoll := now + s.cfg.pollInterval
                                                                pollAnswers := s.pollAnswers.tail }) ∨
    (∃ id, s.holdActive = false ∧ s.xstate ≠ .awaitingDecision ∧ s.sensorAnswers.headD none = some id ∧
      loopStep now s = xOpen now id { sampleClock now s with sensorAnswers := s.sensorAnswers.tail }) ∨
    (s.holdActive = false ∧ s.xstate ≠ .awaitingDecision ∧ s.sensorAnswers.headD none = none ∧
      s.pollAnswers.headD none = none ∧
      loopStep now s = heartbeat now { sampleClock now s with sensorAnswers := s.sensorAnswers.tail
                                                              pollAnswers := s.pollAnswers.tail }) ∨
    (∃ B t, s.holdActive = false ∧ s.xstate ≠ .awaitingDecision ∧ s.sensorAnswers.headD none = none ∧
      s.pollAnswers.headD none = some B ∧
      t = rxProcess now B { sampleClock now s with sensorAnswers := s.sensorAnswers.tail
                                                   pollAnswers := s.pollAnswers.tail } ∧
      loopStep now s = if t.holdActive = true then t else heartbeat now t) := by
  cases hh : s.holdActive with
  | true =>
    by_cases hd : now < s.holdDeadline
    · exact .inl ⟨rfl, hd, by simp [loopStep, hh, stepHold, hd, holdWait]⟩
    · exact .inr (.inl ⟨rfl, Nat.le_of_not_lt hd, by simp [loopStep, hh, stepHold, hd]⟩)
  | false =>
    refine .inr (.inr ?_)
    by_cases hx : s.xstate = .awaitingDecision
    · by_cases hd : s.xdeadline ≤ now
      · exact .inl ⟨rfl, hx, hd, by simp [loopStep, hh, hx, stepWait, hd]⟩
      refine .inr ?_
      have hd' : now < s.xdeadline := Nat.lt_of_not_le hd
      by_cases hp : now < s.nextPoll
      · exact .inl ⟨rfl, hx, hd', hp, by simp [loopStep, hh, hx, stepWait, hd, hp]⟩
      refine .inr ?_
      have hp' : s.nextPoll ≤ now := Nat.le_of_not_lt hp
      cases ha : s.pollAnswers.headD none with
      | none =>
        refine .inl ⟨rfl, hx, hd', hp', rfl, ?_⟩
        simp only [loopStep, sampleClock_holdActive, sampleClock_xstate, hh, hx, stepWait, sampleClock_xdeadline, hd,
          sampleClock_nextPoll, hp, poll, sampleClock_pollAnswers, ha]
        rfl
      | some B =>
        refine .inr (.inl ⟨B, rfl, hx, hd', hp', rfl, ?_⟩)
        simp only [loopStep, sampleClock_holdActive, sampleClock_xstate, hh, hx, stepWait, sampleClock_xdeadline, hd,
          sampleClock_nextPoll, hp, poll, sampleClock_pollAnswers, ha]
        rfl
    · refine .inr (.inr (.inr (.inr ?_)))
      cases hs : s.sensorAnswers.headD none with
      | some id =>
        refine .inl ⟨id, rfl, hx, rfl, ?_⟩
        simp only [loopStep, sampleClock_holdActive, sampleClock_xstate, hh, hx, stepIdle, sensorPoll,
          sampleClock_sensorAnswers, hs]
        rfl
      | none =>
        refine .inr ?_
        have hi : loopStep now s =
            idleTransport now { sampleClock now s with sensorAnswers := s.sensorAnswers.tail } := by
          simp only [loopStep, sampleClock_holdActive, sampleClock_xstate, hh, hx, stepIdle, sensorPoll,
            sampleClock_sensorAnswers, hs]
          rfl
        rw [hi]
        cases ha : s.pollAnswers.headD none with
        | none =>
          refine .inl ⟨rfl, hx, rfl, rfl, ?_⟩
          simp only [idleTransport, poll, sampleClock_pollAnswers, ha, sampleClock_holdActive, hh]
          rfl
        | some B =>
          refine .inr ⟨B, _, rfl, hx, rfl, rfl, rfl, ?_⟩
          simp only [idleTransport, poll, sampleClock_pollAnswers, ha]

end Sys2Proof.Machine
end

