-- ==== Sys2Proof/Laws/Integrity.lean ====
section
/-! SUPPORT. Laws of the checksum register of spec 41_integrity R105: every pass is injective in the register and the
byte step is injective in the byte, which is why no one-byte change is lost (R106). -/

namespace Sys2Proof.Machine

/-- Bit 0 after one pass tells whether the polynomial was subtracted, so the pass is injective: the
polynomial's constant term is 1. -/
theorem crcBit_injective {x y : BitVec 32} (h : crcBit x = crcBit y) : x = y := by
  have hbit (z : BitVec 32) : (crcBit z).getLsbD 0 = z.msb := by
    unfold crcBit
    split
    · next hz => simp [hz, crcPoly]
    · next hz => simp [hz]
  have hmsb : x.msb = y.msb := by rw [← hbit x, ← hbit y, h]
  have hshift : x <<< 1 = y <<< 1 := by
    unfold crcBit at h
    rw [hmsb] at h
    split at h
    · exact (BitVec.xor_left_inj _).mp h
    · exact h
  ext i hi
  by_cases h31 : i = 31
  · subst h31
    simpa [BitVec.msb_eq_getLsbD_last, BitVec.getLsbD_eq_getElem] using hmsb
  · have := congrArg (fun z : BitVec 32 => z.getLsbD (i + 1)) hshift
    have hlt : i + 1 < 32 := by omega
    simpa [BitVec.getLsbD_shiftLeft, hlt, BitVec.getLsbD_eq_getElem hi] using this

theorem crcBits_injective (n : Nat) {x y : BitVec 32} (h : crcBits n x = crcBits n y) : x = y := by
  induction n generalizing x y with
  | zero => exact h
  | succ n ih => exact crcBit_injective (ih h)

theorem crcByte_injective_register {x y : BitVec 32} {b : Byte} (h : crcByte x b = crcByte y b) : x = y :=
  (BitVec.xor_left_inj _).mp (crcBits_injective 8 h)

theorem crcBytes_injective (D : Bytes) {x y : BitVec 32} (h : crcBytes x D = crcBytes y D) : x = y := by
  induction D generalizing x y with
  | nil => exact h
  | cons b rest ih => exact crcByte_injective_register (ih h)

theorem crcBytes_append (A B : Bytes) (x : BitVec 32) : crcBytes x (A ++ B) = crcBytes (crcBytes x A) B := by
  induction A generalizing x with
  | nil => rfl
  | cons b rest ih => exact ih (crcByte x b)

/-- The byte that enters is determined by the register before and after (R105). -/
theorem crcByte_injective_byte {x : BitVec 32} {b b' : Byte} (h : crcByte x b = crcByte x b') : b = b' := by
  have hs : b.setWidth 32 <<< 24 = b'.setWidth 32 <<< 24 :=
    (BitVec.xor_right_inj x).mp (crcBits_injective 8 h)
  ext i hi
  have := congrArg (fun z : BitVec 32 => z.getLsbD (24 + i)) hs
  have hlt : 24 + i < 32 := by omega
  simpa [BitVec.getLsbD_shiftLeft, hlt, BitVec.getLsbD_setWidth, BitVec.getLsbD_eq_getElem hi] using this

end Sys2Proof.Machine
end

