-- ==== Sys2Proof/Laws/PerInstr.lean ====
section
/-! SUPPORT. The per-instruction family `WireFormat`: whatever an instruction encodes to begins with the three bytes
of its format (spec 30_encoding R60) and is at least as long as the format's fixed part (R83); the operations without
a wire encoding encode to nothing (R85). -/

namespace Sys2Proof.Laws.WireFormat

open Sys2Proof Sys2Proof.Machine

/-- Every encoding of the instruction is an uplink frame of at least 16 bytes or a downlink frame of at least 7. -/
def Statement (i : Instr) : Prop :=
  ∀ (c : Config) (B : Bytes), encode c i = some B →
    (B.take 3 = c.magic.bytes ∧ 16 ≤ B.length) ∨ (B.take 3 = c.rxPrefix.bytes ∧ 7 ≤ B.length)

theorem of_up {c : Config} {t : Nibble} {h : UpHeader} {p B : Bytes} (e : some (encodeUp c t h p) = some B) :
    (B.take 3 = c.magic.bytes ∧ 16 ≤ B.length) ∨ (B.take 3 = c.rxPrefix.bytes ∧ 7 ≤ B.length) := by
  cases e
  refine .inl ⟨rfl, ?_⟩
  rw [encodeUp, crcAppend_length, upBody_length]
  omega

theorem of_dn {c : Config} {Q B : Bytes} (e : some (encodeDn c Q) = some B) :
    (B.take 3 = c.magic.bytes ∧ 16 ≤ B.length) ∨ (B.take 3 = c.rxPrefix.bytes ∧ 7 ≤ B.length) := by
  cases e
  refine .inr ?_
  have h : encodeDn c Q = if c.dnCrc = true then crcAppend (dnBody c 0 0 (stageOf c Q))
      else dnBody c 0 0 (stageOf c Q) := rfl
  rw [h]
  split
  · exact ⟨rfl, by rw [crcAppend_length, dnBody_length]; omega⟩
  · exact ⟨rfl, by rw [dnBody_length]; omega⟩

theorem scan (hdr : UpHeader) (payload : Bytes) : Statement (.scan hdr payload) := fun _ _ e => of_up e

theorem status (hdr : UpHeader) (payload : Bytes) : Statement (.status hdr payload) := fun _ _ e => of_up e

theorem ack (hdr : UpHeader) (payload : Bytes) : Statement (.ack hdr payload) := fun _ _ e => of_up e

theorem grant : Statement .grant := fun _ _ e => of_dn e

theorem deny : Statement .deny := fun _ _ e => of_dn e

theorem remoteUnlock (cid ini dur : Bytes) : Statement (.remoteUnlock cid ini dur) := fun _ _ e => of_dn e

theorem remoteLock (cid ini : Bytes) : Statement (.remoteLock cid ini) := fun _ _ e => of_dn e

theorem invalidUnlock (fields : List Bytes) : Statement (.invalidUnlock fields) := fun _ _ e => of_dn e

theorem invalidLock (fields : List Bytes) : Statement (.invalidLock fields) := fun _ _ e => of_dn e

theorem unrecognized (payload : Bytes) : Statement (.unrecognized payload) := fun _ _ e => of_dn e

theorem packTv (msgType version : Nibble) : Statement (.packTv msgType version) := nofun

theorem packFd (flags deviceType : Nibble) : Statement (.packFd flags deviceType) := nofun

theorem unpackNib (b : Byte) : Statement (.unpackNib b) := nofun

theorem enc (msgType deviceType : Nibble) (sequence : BitVec 16) (timestamp : BitVec 32) (payload : Bytes) : Statement 
    (.enc msgType deviceType sequence timestamp payload) := nofun

theorem decUp (buf : Bytes) : Statement (.decUp buf) := nofun

theorem decDn (buf : Bytes) : Statement (.decDn buf) := nofun

theorem upReceive (buf : Bytes) : Statement (.upReceive buf) := nofun

theorem dnReceive (buf : Bytes) : Statement (.dnReceive buf) := nofun

theorem crc32 (data : Bytes) : Statement (.crc32 data) := nofun

theorem crcAppend (frame : Bytes) : Statement (.crcAppend frame) := nofun

theorem crcVerify (data : Bytes) (checksum : BitVec 32) : Statement (.crcVerify data checksum) := nofun

theorem xorTransform (payload key : Bytes) : Statement (.xorTransform payload key) := nofun

theorem txFrame (now : Nat) (msgType : Nibble) (payload : Bytes) : Statement 
    (.txFrame now msgType payload) := nofun

theorem sendScan (now : Nat) (id : Bytes) : Statement (.sendScan now id) := nofun

theorem sendStatus (now : Nat) (text : Bytes) : Statement (.sendStatus now text) := nofun

theorem sendAck (now : Nat) (cid : Bytes) (flag : Byte) (text : Bytes) : Statement 
    (.sendAck now cid flag text) := nofun

theorem heartbeat (now : Nat) : Statement (.heartbeat now) := nofun

theorem loopStep (now : Nat) : Statement (.loopStep now) := nofun

theorem xOpen (now : Nat) (id : Bytes) : Statement (.xOpen now id) := nofun

theorem rxProcess (now : Nat) (buf : Bytes) : Statement (.rxProcess now buf) := nofun

theorem classify (payload : Bytes) : Statement (.classify payload) := nofun

theorem xGrant (now : Nat) : Statement (.xGrant now) := nofun

theorem xDeny (now : Nat) : Statement (.xDeny now) := nofun

theorem xTimeout (now : Nat) : Statement (.xTimeout now) := nofun

theorem xClose : Statement .xClose := nofun

theorem holdFinish (now : Nat) : Statement (.holdFinish now) := nofun

theorem holdWait (now : Nat) : Statement (.holdWait now) := nofun

theorem split (payload : Bytes) : Statement (.split payload) := nofun

theorem parseCmd (payload : Bytes) : Statement (.parseCmd payload) := nofun

theorem parseDuration (text : Bytes) : Statement (.parseDuration text) := nofun

theorem clampDuration (parsed : Option Nat) : Statement (.clampDuration parsed) := nofun

theorem cmdClear : Statement .cmdClear := nofun

theorem reset : Statement .reset := nofun

end Sys2Proof.Laws.WireFormat
end

