-- ==== Sys2Proof/Laws/Step.lean ====
section
/-! SUPPORT. What a step can do, said once (spec 10_state R15, 44_exchange_fsm R136), and what placing a row before a step
does to the state (log entry 4). -/

namespace Sys2Proof.Machine

theorem step_unasked {s : State} (h : s.requests = []) : step s = exec (.loopStep s.clock) s := by
  simp only [step, h]

theorem step_call {s : State} {i : Instr} {ok : hostMay i = true} {rest : List Request}
    (h : s.requests = .call i ok :: rest) : step s = exec i { s with requests := rest } := by
  simp only [step, h]

theorem step_busCommand {s : State} {m : Bytes} {rest : List Request}
    (h : s.requests = .busCommand m :: rest) : step s = .refused .busCommandForm := by
  simp only [step, h]

/-- An operation the host may ask for is a pure one, LOOP_STEP or RESET (R207; log entry 24). -/
theorem hostMay_cases {i : Instr} (h : hostMay i = true) :
    isPure i = true ∨ (∃ now, i = .loopStep now) ∨ i = .reset := by
  cases i <;> simp_all [isPure, hostMay]

/-- Everything a step can do: one loop iteration, RESET, a pure function, or the one refusal (R15, R207, R5; log entry
24). -/
theorem step_cases (s : State) :
    (∃ now t, step s = .next (loopStep now t) ∧ t = { s with requests := t.requests }) ∨
    (∃ t, step s = execReset t ∧ t = { s with requests := t.requests }) ∨
    (∃ i t, isPure i = true ∧ step s = exec i t ∧ t = { s with requests := t.requests }) ∨
    step s = .refused .busCommandForm := by
  cases hr : s.requests with
  | nil => exact .inl ⟨s.clock, s, step_unasked hr, rfl⟩
  | cons r rest =>
    cases r with
    | call i ok =>
      obtain hp | ⟨now, rfl⟩ | rfl := hostMay_cases ok
      · exact .inr (.inr (.inl ⟨i, _, hp, step_call hr, rfl⟩))
      · exact .inl ⟨now, _, step_call hr, rfl⟩
      · exact .inr (.inl ⟨_, step_call hr, rfl⟩)
    | busCommand m => exact .inr (.inr (.inr (step_busCommand hr)))

/-- The step after placing a word is one loop iteration at the placed state's clock sample. -/
theorem step_withFetchWord (s : State) (nbits w : Nat) :
    step (s.withFetchWord nbits w) =
      .next (loopStep (placeFrame (bytesOfWord (nbits / 8) w) s).clock
        { placeFrame (bytesOfWord (nbits / 8) w) s with requests := s.requests }) := rfl

/-- A downlink frame is placed as the next buffer to poll: no downlink payload decodes to an uplink row. -/
theorem placeFrame_downlink {F : Bytes} {s : State} (h : F.take 3 = s.cfg.rxPrefix.bytes) :
    placeFrame F s = pollNext F s := by
  have hd : decode s.cfg F = decodeDnFrame s.cfg F := by simp only [decode, h, if_true]
  unfold placeFrame
  rw [hd]
  unfold decodeDnFrame
  cases dnReceive s.cfg F with
  | malformed r => rfl
  | checksumMismatch => rfl
  | payload Q =>
    simp only [decodeText]
    repeat' split
    all_goals simp_all [placeRow]

end Sys2Proof.Machine
end

