-- ==== Sys2Proof/Tests/Slice0.lean ====
section
/-! SUPPORT. Tests: frames written out from the spec's encodings, an ill-formed term for each well-formedness check,
the vectors of spec/95_test_vectors.md (each test names its vector, all computed there from the rules), and a
witness for the hypotheses of each obligation. -/

namespace Sys2Proof.Tests

open Sys2Proof Sys2Proof.Machine

-- The tests are checked one after another: checking many at once takes a thread each.
set_option Elab.async false

/-- Bytes from numbers. -/
def hex (l : List Nat) : Bytes := l.map (BitVec.ofNat 8)

/-- The next state of an outcome, if it has one. -/
def nextOf (o : Host.Outcome State Fault Refusal) : Option State :=
  match o with
  | .next t => some t
  | .fault _ => none
  | .refused _ => none

/-- The reason of a refusal, if it is one. -/
def refusalOf (o : Host.Outcome State Fault Refusal) : Option Refusal :=
  match o with
  | .next _ => none
  | .fault _ => none
  | .refused r => some r

/-- The identifier of the source's example (S8). -/
def scanId : Bytes := hex [0x04, 0xA2, 0x13, 0x9B]

/-- The grant frame V60. -/
def grantFrame : Bytes := hex [0xDD, 0xEE, 0xFF, 0x00, 0x00, 0x01, 0x05, 0x47, 0x52, 0x41, 0x4E, 0x54]

/-- CFG_REF with the key of V37. -/
def keyConfig : Config := { Config.ref with key := hex [0x5A, 0xA5, 0x3C] }

/-- CFG_REF with the inbound checksum opt-in (V70, program P10). -/
def checkedConfig : Config := { Config.ref with dnCrc := true }

/-- CFG_REF with the heartbeat of program P7. -/
def heartbeatConfig : Config := { Config.ref with heartbeatInterval := some 30000 }

/-- The state before V123: a decision is awaited. -/
def waiting : State :=
  { State.reset with
    xstate := .awaitingDecision
    xdeadline := 12000
    nextPoll := 200
    seq := 1#16 }

/-- The state of V124: the grant frame is there to be polled. -/
def polling : State :=
  { waiting with
    pollAnswers := [some grantFrame]
    clock := 200 }

/-- The hold of program P4. -/
def unlockHold : State :=
  { State.reset with
    holdActive := true
    holdCause := .unlock
    holdDeadline := 31000
    cmdValid := true
    cmdId := hex [0x69, 0x64, 0x31]
    cmdInitiator := hex [0x61, 0x6C, 0x69, 0x63, 0x65]
    cmdDuration := 30000 }

/-- The hold of program P6. -/
def grantHold : State :=
  { State.resetWith keyConfig with
    holdActive := true
    holdDeadline := 5100
    xstate := .granted
    xoutcome := .granted
    xdeadline := 12000
    seq := 2#16 }

/-- What an operation returns, run in the reset state of a configuration. -/
def valueOf (c : Config) (i : Instr) : Option Value := (nextOf (exec i (State.resetWith c))).bind fun t => t.result

/-! ### Encodings: the ten rows with a wire encoding, their frames written out from R61, R68, R76 to R79 -/

/-- V30: decoded, and encoded back. -/
theorem test_word_scan : decode Config.ref (hex [0xAA, 0xBB, 0xCC, 0x11, 0x01, 0x00, 0x00, 0x00, 0x00, 0x00,
    0x00, 0x04, 0x04, 0xA2, 0x13, 0x9B, 0x7E, 0x2A, 0xE4, 0xFC]) = .instr (.scan ⟨1#4, 0#4, 1#4, 0#16, 0#32⟩
    (hex [0x04, 0xA2, 0x13, 0x9B])) ∧ encode Config.ref (.scan ⟨1#4, 0#4, 1#4, 0#16, 0#32⟩ (hex [0x04, 0xA2,
    0x13, 0x9B])) = some (hex [0xAA, 0xBB, 0xCC, 0x11, 0x01, 0x00, 0x00, 0x00, 0x00, 0x00, 0x00, 0x04, 0x04,
    0xA2, 0x13, 0x9B, 0x7E, 0x2A, 0xE4, 0xFC]) := by decide +kernel

/-- V38: decoded, and encoded back. -/
theorem test_word_status : decode Config.ref (hex [0xAA, 0xBB, 0xCC, 0x61, 0x01, 0x01, 0x00, 0x03, 0x00, 0x00,
    0x00, 0x04, 0x6F, 0x70, 0x65, 0x6E, 0x91, 0xCE, 0x86, 0x36]) = .instr (.status ⟨1#4, 0#4, 1#4, 1#16, 3#32⟩
    (hex [0x6F, 0x70, 0x65, 0x6E])) ∧ encode Config.ref (.status ⟨1#4, 0#4, 1#4, 1#16, 3#32⟩ (hex [0x6F, 0x70,
    0x65, 0x6E])) = some (hex [0xAA, 0xBB, 0xCC, 0x61, 0x01, 0x01, 0x00, 0x03, 0x00, 0x00, 0x00, 0x04, 0x6F,
    0x70, 0x65, 0x6E, 0x91, 0xCE, 0x86, 0x36]) := by decide +kernel

/-- V40: decoded, and encoded back. -/
theorem test_word_ack : decode Config.ref (hex [0xAA, 0xBB, 0xCC, 0x61, 0x01, 0x00, 0x00, 0x02, 0x00, 0x00,
    0x00, 0x0C, 0x41, 0x43, 0x4B, 0x3A, 0x69, 0x64, 0x31, 0x3A, 0x31, 0x3A, 0x4F, 0x4B, 0xCA, 0x49, 0xAD,
    0x17]) = .instr (.ack ⟨1#4, 0#4, 1#4, 0#16, 2#32⟩ (hex [0x41, 0x43, 0x4B, 0x3A, 0x69, 0x64, 0x31, 0x3A,
    0x31, 0x3A, 0x4F, 0x4B])) ∧ encode Config.ref (.ack ⟨1#4, 0#4, 1#4, 0#16, 2#32⟩ (hex [0x41, 0x43, 0x4B,
    0x3A, 0x69, 0x64, 0x31, 0x3A, 0x31, 0x3A, 0x4F, 0x4B])) = some (hex [0xAA, 0xBB, 0xCC, 0x61, 0x01, 0x00,
    0x00, 0x02, 0x00, 0x00, 0x00, 0x0C, 0x41, 0x43, 0x4B, 0x3A, 0x69, 0x64, 0x31, 0x3A, 0x31, 0x3A, 0x4F, 0x4B,
    0xCA, 0x49, 0xAD, 0x17]) := by decide +kernel

/-- V60: decoded, and encoded back. -/
theorem test_word_grant : decode Config.ref (hex [0xDD, 0xEE, 0xFF, 0x00, 0x00, 0x01, 0x05, 0x47, 0x52, 0x41,
    0x4E, 0x54]) = .instr (.grant) ∧ encode Config.ref (.grant) = some (hex [0xDD, 0xEE, 0xFF, 0x00, 0x00,
    0x01, 0x05, 0x47, 0x52, 0x41, 0x4E, 0x54]) := by decide +kernel

/-- the frame of program P8, step 2: decoded, and encoded back. -/
theorem test_word_deny : decode Config.ref (hex [0xDD, 0xEE, 0xFF, 0x00, 0x00, 0x01, 0x05, 0x44, 0x45, 0x4E,
    0x59, 0x5F]) = .instr (.deny) ∧ encode Config.ref (.deny) = some (hex [0xDD, 0xEE, 0xFF, 0x00, 0x00, 0x01,
    0x05, 0x44, 0x45, 0x4E, 0x59, 0x5F]) := by decide +kernel

/-- program P4, step 1: decoded, and encoded back. -/
theorem test_word_remote_unlock : decode Config.ref (hex [0xDD, 0xEE, 0xFF, 0x00, 0x00, 0x01, 0x1D, 0x52, 0x45,
    0x4D, 0x4F, 0x54, 0x45, 0x5F, 0x55, 0x4E, 0x4C, 0x4F, 0x43, 0x4B, 0x3A, 0x69, 0x64, 0x31, 0x3A, 0x61, 0x6C,
    0x69, 0x63, 0x65, 0x3A, 0x39, 0x39, 0x39, 0x39, 0x39]) = .instr (.remoteUnlock (hex [0x69, 0x64, 0x31])
    (hex [0x61, 0x6C, 0x69, 0x63, 0x65]) (hex [0x39, 0x39, 0x39, 0x39, 0x39])) ∧ encode Config.ref
    (.remoteUnlock (hex [0x69, 0x64, 0x31]) (hex [0x61, 0x6C, 0x69, 0x63, 0x65]) (hex [0x39, 0x39, 0x39, 0x39,
    0x39])) = some (hex [0xDD, 0xEE, 0xFF, 0x00, 0x00, 0x01, 0x1D, 0x52, 0x45, 0x4D, 0x4F, 0x54, 0x45, 0x5F,
    0x55, 0x4E, 0x4C, 0x4F, 0x43, 0x4B, 0x3A, 0x69, 0x64, 0x31, 0x3A, 0x61, 0x6C, 0x69, 0x63, 0x65, 0x3A, 0x39,
    0x39, 0x39, 0x39, 0x39]) := by decide +kernel

/-- program P4, step 4: decoded, and encoded back. -/
theorem test_word_remote_lock : decode Config.ref (hex [0xDD, 0xEE, 0xFF, 0x00, 0x00, 0x01, 0x12, 0x52, 0x45,
    0x4D, 0x4F, 0x54, 0x45, 0x5F, 0x4C, 0x4F, 0x43, 0x4B, 0x3A, 0x63, 0x37, 0x3A, 0x62, 0x6F, 0x62]) = .instr
    (.remoteLock (hex [0x63, 0x37]) (hex [0x62, 0x6F, 0x62])) ∧ encode Config.ref (.remoteLock (hex [0x63,
    0x37]) (hex [0x62, 0x6F, 0x62])) = some (hex [0xDD, 0xEE, 0xFF, 0x00, 0x00, 0x01, 0x12, 0x52, 0x45, 0x4D,
    0x4F, 0x54, 0x45, 0x5F, 0x4C, 0x4F, 0x43, 0x4B, 0x3A, 0x63, 0x37, 0x3A, 0x62, 0x6F, 0x62]) :=
    by decide +kernel

/-- program P5, step 2: decoded, and encoded back. -/
theorem test_word_invalid_unlock : decode Config.ref (hex [0xDD, 0xEE, 0xFF, 0x00, 0x00, 0x01, 0x17, 0x52,
    0x45, 0x4D, 0x4F, 0x54, 0x45, 0x5F, 0x55, 0x4E, 0x4C, 0x4F, 0x43, 0x4B, 0x3A, 0x69, 0x64, 0x31, 0x3A, 0x61,
    0x6C, 0x69, 0x63, 0x65]) = .instr (.invalidUnlock [hex [0x69, 0x64, 0x31], hex [0x61, 0x6C, 0x69, 0x63,
    0x65]]) ∧ encode Config.ref (.invalidUnlock [hex [0x69, 0x64, 0x31], hex [0x61, 0x6C, 0x69, 0x63, 0x65]]) =
    some (hex [0xDD, 0xEE, 0xFF, 0x00, 0x00, 0x01, 0x17, 0x52, 0x45, 0x4D, 0x4F, 0x54, 0x45, 0x5F, 0x55, 0x4E,
    0x4C, 0x4F, 0x43, 0x4B, 0x3A, 0x69, 0x64, 0x31, 0x3A, 0x61, 0x6C, 0x69, 0x63, 0x65]) := by decide +kernel

/-- program P5, step 3: decoded, and encoded back. -/
theorem test_word_invalid_lock : decode Config.ref (hex [0xDD, 0xEE, 0xFF, 0x00, 0x00, 0x01, 0x0E, 0x52, 0x45,
    0x4D, 0x4F, 0x54, 0x45, 0x5F, 0x4C, 0x4F, 0x43, 0x4B, 0x3A, 0x63, 0x37]) = .instr (.invalidLock [hex [0x63,
    0x37]]) ∧ encode Config.ref (.invalidLock [hex [0x63, 0x37]]) = some (hex [0xDD, 0xEE, 0xFF, 0x00, 0x00,
    0x01, 0x0E, 0x52, 0x45, 0x4D, 0x4F, 0x54, 0x45, 0x5F, 0x4C, 0x4F, 0x43, 0x4B, 0x3A, 0x63, 0x37]) :=
    by decide +kernel

/-- V62: decoded, and encoded back. -/
theorem test_word_unrecognized : decode Config.ref (hex [0xDD, 0xEE, 0xFF, 0x00, 0x00, 0x01, 0x00]) = .instr
    (.unrecognized []) ∧ encode Config.ref (.unrecognized []) = some (hex [0xDD, 0xEE, 0xFF, 0x00, 0x00, 0x01,
    0x00]) := by decide +kernel

/-- V31: both multi-byte fields, all bytes distinct. -/
theorem test_word_sequence_and_timestamp_little_endian : decode Config.ref (hex [0xAA, 0xBB, 0xCC, 0x11, 0x01,
    0xFF, 0xFF, 0x04, 0x03, 0x02, 0x01, 0x00, 0x47, 0x1B, 0x60, 0x6A]) = .instr (.scan ⟨1#4, 0#4, 1#4,
    0xFFFF#16, 0x01020304#32⟩ []) := by decide +kernel

/-- V36 (an unassigned type), V55, V57, V68: rejected by name. -/
theorem test_word_rejected : decode Config.ref (hex [0xAA, 0xBB, 0xCC, 0xF1, 0x0F, 0xCD, 0xAB, 0xEF, 0xBE,
    0xAD, 0xDE, 0x01, 0x78, 0x9E, 0x85, 0xA9, 0x14]) = .rejected (.unassignedMsgType 15#4) ∧ decode Config.ref
    (hex [0xAB, 0xBB, 0xCC, 0x11, 0x01, 0x00, 0x00, 0x00, 0x00, 0x00, 0x00, 0x04, 0x04, 0xA2, 0x13, 0x9B, 0x7E,
    0x2A, 0xE4, 0xFC]) = .rejected (.malformed .badHeader) ∧ decode Config.ref (hex [0xAA, 0xBB, 0xCC, 0x11,
    0x01, 0x00, 0x00, 0x00, 0x00, 0x00, 0x00, 0x04, 0x04, 0xA2, 0x13, 0x9A, 0x7E, 0x2A, 0xE4, 0xFC]) =
    .rejected .checksumMismatch ∧ decode Config.ref (hex [0xDD, 0xEE, 0xFF, 0x00, 0x00, 0x02, 0x05, 0x47, 0x52,
    0x41, 0x4E, 0x54]) = .rejected (.malformed .badChannel) := by decide +kernel

/-- R85: with a type of its own an acknowledgment is told by the nibble alone, whatever its text. -/
theorem test_word_ack_by_its_own_type : decode (({ Config.ref with mtAck := 7#4 } : Config)) (encodeUp
    Config.ref 7#4 ⟨1#4, 0#4, 1#4, 0#16, 0#32⟩ []) = .instr (.ack ⟨1#4, 0#4, 1#4, 0#16, 0#32⟩ []) :=
    by decide +kernel

/-- V60 as one number, first byte least significant; one byte short it is malformed. -/
theorem test_decodeTableWord : decodeTableWord 96 0x544E41524705010000FFEEDD = some .grant ∧ decodeTableWord 88
    0x544E41524705010000FFEEDD = none := by decide +kernel

/-- A frame as one number, first byte least significant. -/
def wordOf (B : Bytes) : Nat := B.foldr (fun b n => b.toNat + 256 * n) 0

/-- The state after the first step after reset, with the frame placed before it. -/
def afterPlaced (B : Bytes) : Option State := nextOf (step (State.reset.withFetchWord (8 * B.length) (wordOf B)))

/-- V60 placed as the first row after reset: a stray token (V127). -/
theorem test_withFetchWord : (nextOf (step (State.reset.withFetchWord 96 0x544E41524705010000FFEEDD))).map (fun
    t => (t.calls, t.requests)) = some ([.diag (.strayDecision .grant)], []) := by decide +kernel

/-- V30 placed: the step sends that very frame, and opens the exchange (R138). -/
theorem test_withFetchWord_scan : (afterPlaced (hex [0xAA, 0xBB, 0xCC, 0x11, 0x01, 0x00, 0x00, 0x00, 0x00, 0x00,
    0x00, 0x04, 0x04, 0xA2, 0x13, 0x9B, 0x7E, 0x2A, 0xE4, 0xFC])).map (fun t => (t.calls, t.xstate)) = some
    ([.send (hex [0xAA, 0xBB, 0xCC, 0x11, 0x01, 0x00, 0x00, 0x00, 0x00, 0x00, 0x00, 0x04, 0x04, 0xA2, 0x13,
    0x9B, 0x7E, 0x2A, 0xE4, 0xFC])], .awaitingDecision) := by decide +kernel

/-- V38 placed: the step sends a STATUS with that text. -/
theorem test_withFetchWord_status : (afterPlaced (hex [0xAA, 0xBB, 0xCC, 0x61, 0x01, 0x01, 0x00, 0x03, 0x00,
    0x00, 0x00, 0x04, 0x6F, 0x70, 0x65, 0x6E, 0x91, 0xCE, 0x86, 0x36])).map (fun t => (framesOf t.calls).map
    fun F => (F[3]?, slice F 12 4)) = some [(some 0x61#8, hex [0x6F, 0x70, 0x65, 0x6E])] := by decide +kernel

/-- V40 placed: the step sends the acknowledgment `ACK:id1:1:OK`, then the STATUS of the lock (R168). -/
theorem test_withFetchWord_ack : (afterPlaced (hex [0xAA, 0xBB, 0xCC, 0x61, 0x01, 0x00, 0x00, 0x02, 0x00, 0x00,
    0x00, 0x0C, 0x41, 0x43, 0x4B, 0x3A, 0x69, 0x64, 0x31, 0x3A, 0x31, 0x3A, 0x4F, 0x4B, 0xCA, 0x49, 0xAD,
    0x17])).map (fun t => (framesOf t.calls).map fun F => slice F 12 (F.length - 16)) = some [hex [0x41, 0x43,
    0x4B, 0x3A, 0x69, 0x64, 0x31, 0x3A, 0x31, 0x3A, 0x4F, 0x4B], hex [0x63, 0x6C, 0x6F, 0x73]] :=
    by decide +kernel

/-! ### Well-formedness: for each check an ill-formed term, which the check refuses -/

theorem test_illformed_scan : ¬ Instr.wf Config.ref (.scan ⟨1#4, 0#4, 1#4, 0#16, 0#32⟩ (List.replicate 256
    0x41#8)) := by decide +kernel

theorem test_illformed_status_length : ¬ Instr.wf Config.ref (.status ⟨1#4, 0#4, 1#4, 0#16, 0#32⟩
    (List.replicate 256 0x41#8)) := by decide +kernel

theorem test_illformed_status_text : ¬ Instr.wf Config.ref (.status ⟨1#4, 0#4, 1#4, 0#16, 0#32⟩ (hex [0x41,
    0x43, 0x4B, 0x3A])) := by decide +kernel

theorem test_illformed_ack_length : ¬ Instr.wf Config.ref (.ack ⟨1#4, 0#4, 1#4, 0#16, 0#32⟩ (hex [0x41, 0x43,
    0x4B, 0x3A] ++ (List.replicate 256 0x41#8))) := by decide +kernel

theorem test_illformed_ack_text : ¬ Instr.wf Config.ref (.ack ⟨1#4, 0#4, 1#4, 0#16, 0#32⟩ (hex [0x41, 0x43,
    0x4B])) := by decide +kernel

theorem test_illformed_unlock_cid : ¬ Instr.wf Config.ref (.remoteUnlock (hex [0x61, 0x3A]) [] []) :=
    by decide +kernel

theorem test_illformed_unlock_ini : ¬ Instr.wf Config.ref (.remoteUnlock [] (hex [0x3A, 0x62]) []) :=
    by decide +kernel

theorem test_illformed_unlock_dur : ¬ Instr.wf Config.ref (.remoteUnlock [] [] (hex [0x3A])) :=
    by decide +kernel

theorem test_illformed_unlock_length : ¬ Instr.wf Config.ref (.remoteUnlock (List.replicate 256 0x41#8) [] [])
    := by decide +kernel

theorem test_illformed_lock_cid : ¬ Instr.wf Config.ref (.remoteLock (hex [0x3A]) []) := by decide +kernel

theorem test_illformed_lock_ini : ¬ Instr.wf Config.ref (.remoteLock [] (hex [0x3A])) := by decide +kernel

theorem test_illformed_lock_length : ¬ Instr.wf Config.ref (.remoteLock [] (List.replicate 256 0x41#8)) :=
    by decide +kernel

theorem test_illformed_invalid_unlock_count : ¬ Instr.wf Config.ref (.invalidUnlock [[], [], []]) :=
    by decide +kernel

theorem test_illformed_invalid_unlock_field : ¬ Instr.wf Config.ref (.invalidUnlock [hex [0x3A]]) :=
    by decide +kernel

theorem test_illformed_invalid_unlock_length : ¬ Instr.wf Config.ref (.invalidUnlock [(List.replicate 256
    0x41#8)]) := by decide +kernel

theorem test_illformed_invalid_lock_count : ¬ Instr.wf Config.ref (.invalidLock [[], []]) := by decide +kernel

theorem test_illformed_invalid_lock_field : ¬ Instr.wf Config.ref (.invalidLock [hex [0x3A]]) :=
    by decide +kernel

theorem test_illformed_invalid_lock_length : ¬ Instr.wf Config.ref (.invalidLock [(List.replicate 256 0x41#8)])
    := by decide +kernel

theorem test_illformed_unrecognized_length : ¬ Instr.wf Config.ref (.unrecognized (List.replicate 256 0x41#8))
    := by decide +kernel

theorem test_illformed_unrecognized_token : ¬ Instr.wf Config.ref (.unrecognized (hex [0x47, 0x52, 0x41, 0x4E,
    0x54])) := by decide +kernel

theorem test_illformed_crc_append : ¬ Instr.wf Config.ref (.crcAppend (hex [0x00, 0x00, 0x00, 0x00, 0x00, 0x00,
    0x00, 0x00, 0x00, 0x00, 0x00])) := by decide +kernel

theorem test_illformed_tx_frame : ¬ Instr.wf Config.ref (.txFrame 0 1#4 (hex [0x01, 0x02, 0x03, 0x04, 0x05,
    0x06, 0x07, 0x08, 0x09, 0x0A, 0x0B])) := by decide +kernel

theorem test_illformed_send_ack : ¬ Instr.wf Config.ref (.sendAck 0 [] 0x32#8 []) := by decide +kernel

/-- The constraints of R7, each broken once; CFG_REF meets them. -/
theorem test_illformed_config : ¬ ({ Config.ref with mtAck := 1#4 } : Config).wf ∧ ¬
    ({ Config.ref with rxPrefix := Config.ref.magic } : Config).wf ∧ ¬
    ({ Config.ref with tokenDeny := Config.ref.tokenGrant } : Config).wf ∧ ¬
    ({ Config.ref with pollInterval := 0 } : Config).wf ∧ ¬ ({ Config.ref with heartbeatInterval := some 0 } :
    Config).wf ∧ Config.ref.wf := by decide +kernel

theorem test_wellformed : Instr.wf Config.ref (.remoteUnlock (hex [0x69, 0x64, 0x31]) (hex [0x61, 0x6C, 0x69,
    0x63, 0x65]) (hex [0x39, 0x39, 0x39, 0x39, 0x39])) ∧ Instr.wf Config.ref (.crcAppend (hex [0x00, 0x00,
    0x00, 0x00, 0x00, 0x00, 0x00, 0x00, 0x00, 0x00, 0x00, 0x00])) ∧ Instr.wf Config.ref (.txFrame 0 1#4 (hex
    [0x01, 0x02, 0x03, 0x04, 0x05, 0x06, 0x07, 0x08, 0x09, 0x0A])) := by decide +kernel

/-! ### The pure operations, from the vectors V1 to V108 -/

/-- V28. -/
theorem test_pack_tv : valueOf (Config.ref) (.packTv 6#4 1#4) = some (.byte 0x61#8) := by decide +kernel

/-- V28. -/
theorem test_pack_fd : valueOf (Config.ref) (.packFd 2#4 3#4) = some (.byte 0x23#8) := by decide +kernel

/-- V29. -/
theorem test_unpack_nib : valueOf (Config.ref) (.unpackNib 0x61#8) = some (.nibbles 6#4 1#4) :=
    by decide +kernel

/-- V34: a string is cut to 16 bytes. -/
theorem test_enc_truncates : valueOf (Config.ref) (.enc 6#4 1#4 7#16 9#32 (hex [0x41, 0x42, 0x43, 0x44, 0x45,
    0x46, 0x47, 0x48, 0x49, 0x4A, 0x4B, 0x4C, 0x4D, 0x4E, 0x4F, 0x50, 0x51, 0x52, 0x53, 0x54])) = some
    (.encResult (.frame (hex [0xAA, 0xBB, 0xCC, 0x61, 0x01, 0x07, 0x00, 0x09, 0x00, 0x00, 0x00, 0x10, 0x41,
    0x42, 0x43, 0x44, 0x45, 0x46, 0x47, 0x48, 0x49, 0x4A, 0x4B, 0x4C, 0x4D, 0x4E, 0x4F, 0x50, 0x77, 0x04, 0x79,
    0x91]))) := by decide +kernel

/-- V33: an identifier of 11 bytes. -/
theorem test_enc_rejects : valueOf (Config.ref) (.enc 1#4 1#4 0#16 0#32 (hex [0x01, 0x02, 0x03, 0x04, 0x05,
    0x06, 0x07, 0x08, 0x09, 0x0A, 0x0B])) = some (.encResult .encodeRejected) := by decide +kernel

/-- V54: every header field distinct. -/
theorem test_dec_up : valueOf (Config.ref) (.decUp (hex [0xAA, 0xBB, 0xCC, 0xF1, 0x0F, 0xCD, 0xAB, 0xEF, 0xBE,
    0xAD, 0xDE, 0x01, 0x78, 0x9E, 0x85, 0xA9, 0x14])) = some (.upDecoded (.frame ⟨15#4, 1#4, 0#4, 15#4,
    0xABCD#16, 0xDEADBEEF#32, 1, hex [0x78], 0x14A9859E#32⟩)) := by decide +kernel

/-- V56. -/
theorem test_dec_up_length : valueOf (Config.ref) (.decUp (hex [0xAA, 0xBB, 0xCC, 0x11, 0x01, 0x00, 0x00, 0x00,
    0x00, 0x00, 0x00, 0x05, 0x04, 0xA2, 0x13, 0x9B, 0x7E, 0x2A, 0xE4, 0xFC])) = some (.upDecoded (.malformed
    .lengthMismatch)) := by decide +kernel

/-- V58, with the key 5A A5 3C. -/
theorem test_up_receive_key : valueOf (keyConfig) (.upReceive (hex [0xAA, 0xBB, 0xCC, 0x11, 0x01, 0x00, 0x00,
    0x00, 0x00, 0x00, 0x00, 0x04, 0x5E, 0x07, 0x2F, 0xC1, 0xBF, 0x58, 0x69, 0xE6])) = some (.upReceived (.frame
    ⟨1#4, 1#4, 0#4, 1#4, 0#16, 0#32, 4, hex [0x04, 0xA2, 0x13, 0x9B], 0xE66958BF#32⟩) none) := by
    decide +kernel

/-- V57, with the condition of R185. -/
theorem test_up_receive_mismatch : valueOf (Config.ref) (.upReceive (hex [0xAA, 0xBB, 0xCC, 0x11, 0x01, 0x00,
    0x00, 0x00, 0x00, 0x00, 0x00, 0x04, 0x04, 0xA2, 0x13, 0x9A, 0x7E, 0x2A, 0xE4, 0xFC])) = some (.upReceived
    .checksumMismatch (some .checksumMismatch)) := by decide +kernel

/-- V67: the first failing test wins. -/
theorem test_dec_dn_order : valueOf (Config.ref) (.decDn (hex [0xDD, 0xEE, 0xFE, 0x00, 0x00, 0x02, 0x09])) =
    some (.dnDecoded (.malformed .badHeader)) := by decide +kernel

/-- V70, with DN_CRC. -/
theorem test_dec_dn_trailer : valueOf (checkedConfig) (.decDn (hex [0xDD, 0xEE, 0xFF, 0x00, 0x00, 0x01, 0x05,
    0x47, 0x52, 0x41, 0x4E, 0x54, 0xAF, 0xBD, 0x7B, 0x18])) = some (.dnDecoded (.frame ⟨5, hex [0x47, 0x52,
    0x41, 0x4E, 0x54], some 0x187BBDAF#32⟩)) := by decide +kernel

/-- V71, with DN_CRC. -/
theorem test_dn_receive_checked : valueOf (checkedConfig) (.dnReceive (hex [0xDD, 0xEE, 0xFF, 0x00, 0x00, 0x01,
    0x05, 0x47, 0x72, 0x41, 0x4E, 0x54, 0xAF, 0xBD, 0x7B, 0x18])) = some (.dnReceived .checksumMismatch) :=
    by decide +kernel

/-- V69, with the key 5A A5 3C. -/
theorem test_dn_receive_key : valueOf (keyConfig) (.dnReceive (hex [0xDD, 0xEE, 0xFF, 0x00, 0x00, 0x01, 0x05,
    0x1D, 0xF7, 0x7D, 0x14, 0xF1])) = some (.dnReceived (.payload (hex [0x47, 0x52, 0x41, 0x4E, 0x54]))) :=
    by decide +kernel

/-- V6: not the reflected CRC-32. -/
theorem test_crc32_check_string : valueOf (Config.ref) (.crc32 (hex [0x31, 0x32, 0x33, 0x34, 0x35, 0x36, 0x37,
    0x38, 0x39])) = some (.checksum 0xFC891918#32) := by decide +kernel

/-- V1. -/
theorem test_crc32_empty : valueOf (Config.ref) (.crc32 []) = some (.checksum 0#32) := by decide +kernel

/-- V14. -/
theorem test_crc_append : valueOf (Config.ref) (.crcAppend (hex [0xAA, 0xBB, 0xCC, 0x11, 0x01, 0x00, 0x00,
    0x00, 0x00, 0x00, 0x00, 0x04, 0x04, 0xA2, 0x13, 0x9B])) = some (.bytes (hex [0xAA, 0xBB, 0xCC, 0x11, 0x01,
    0x00, 0x00, 0x00, 0x00, 0x00, 0x00, 0x04, 0x04, 0xA2, 0x13, 0x9B, 0x7E, 0x2A, 0xE4, 0xFC])) :=
    by decide +kernel

/-- V15. -/
theorem test_crc_verify_true : valueOf (Config.ref) (.crcVerify (hex [0x11, 0x01, 0x00, 0x00, 0x00, 0x00, 0x00,
    0x00, 0x04, 0x04, 0xA2, 0x13, 0x9B]) 0xFCE42A7E#32) = some (.bool true) := by decide +kernel

/-- V15. -/
theorem test_crc_verify_false : valueOf (Config.ref) (.crcVerify (hex [0x11, 0x01, 0x00, 0x00, 0x00, 0x00,
    0x00, 0x00, 0x04, 0x04, 0xA2, 0x13, 0x9B]) 0xFCE42A7F#32) = some (.bool false) := by decide +kernel

/-- V21: byte 3 uses key byte 0 again. -/
theorem test_xor_transform_wraps : valueOf (Config.ref) (.xorTransform (hex [0x04, 0xA2, 0x13, 0x9B]) (hex
    [0x5A, 0xA5, 0x3C])) = some (.bytes (hex [0x5E, 0x07, 0x2F, 0xC1])) := by decide +kernel

/-- V25. -/
theorem test_xor_transform_empty_key : valueOf (Config.ref) (.xorTransform (hex [0x6F, 0x70, 0x65, 0x6E]) []) =
    some (.bytes (hex [0x6F, 0x70, 0x65, 0x6E])) := by decide +kernel

/-- V104. -/
theorem test_classify_token : valueOf (Config.ref) (.classify (hex [0x44, 0x45, 0x4E, 0x59, 0x5F])) = some
    (.classified .denyToken) := by decide +kernel

/-- V105. -/
theorem test_classify_case : valueOf (Config.ref) (.classify (hex [0x67, 0x72, 0x61, 0x6E, 0x74])) = some
    (.classified .notACommand) := by decide +kernel

/-- V106. -/
theorem test_split : valueOf (Config.ref) (.split (hex [0x61, 0x3A, 0x3A, 0x62])) = some (.fields [hex [0x61],
    [], hex [0x62]]) := by decide +kernel

/-- V80, the source's own example. -/
theorem test_parse_cmd_unlock : valueOf (Config.ref) (.parseCmd (hex [0x52, 0x45, 0x4D, 0x4F, 0x54, 0x45, 0x5F,
    0x55, 0x4E, 0x4C, 0x4F, 0x43, 0x4B, 0x3A, 0x69, 0x64, 0x31, 0x3A, 0x61, 0x6C, 0x69, 0x63, 0x65, 0x3A, 0x39,
    0x39, 0x39, 0x39, 0x39])) = some (.classified (.unlock (hex [0x69, 0x64, 0x31]) (hex [0x61, 0x6C, 0x69,
    0x63, 0x65]) 30000)) := by decide +kernel

/-- V97. -/
theorem test_parse_cmd_too_many : valueOf (Config.ref) (.parseCmd (hex [0x52, 0x45, 0x4D, 0x4F, 0x54, 0x45,
    0x5F, 0x55, 0x4E, 0x4C, 0x4F, 0x43, 0x4B, 0x3A, 0x69, 0x64, 0x31, 0x3A, 0x61, 0x6C, 0x69, 0x63, 0x65, 0x3A,
    0x35, 0x30, 0x30, 0x30, 0x3A, 0x78])) = some (.classified (.invalidUnlock (hex [0x69, 0x64, 0x31]))) :=
    by decide +kernel

/-- V107. -/
theorem test_parse_duration : valueOf (Config.ref) (.parseDuration (hex [0x30, 0x30, 0x35, 0x30, 0x30])) = some
    (.duration (some 500)) := by decide +kernel

/-- V107. -/
theorem test_parse_duration_sign : valueOf (Config.ref) (.parseDuration (hex [0x2D, 0x35])) = some (.duration
    none) := by decide +kernel

/-- V108: below the minimum the default, not the minimum. -/
theorem test_clamp_duration_below : valueOf (Config.ref) (.clampDuration (some 999)) = some (.natural 5000) :=
    by decide +kernel

/-- V108. -/
theorem test_clamp_duration_above : valueOf (Config.ref) (.clampDuration (some 30001)) = some (.natural 30000)
    := by decide +kernel

/-! ### The operations that change state, from V40 to V47, V120 to V128 and the programs -/

/-- V44: SEQ wraps. -/
theorem test_tx_frame_wraps : (nextOf (exec (.txFrame 999 1#4 (hex [0x04, 0xA2, 0x13, 0x9B]))
    ({ State.reset with seq := 0xFFFF#16 }))).map (fun t => (t.calls, t.seq)) = some ([.send (hex [0xAA, 0xBB,
    0xCC, 0x11, 0x01, 0xFF, 0xFF, 0x00, 0x00, 0x00, 0x00, 0x04, 0x04, 0xA2, 0x13, 0x9B, 0xA1, 0x14, 0xC6,
    0x81])], 0#16) := by decide +kernel

/-- V47, program P9 step 1. -/
theorem test_tx_frame_send_fails : (nextOf (exec (.txFrame 0 1#4 (hex [0x04, 0xA2, 0x13, 0x9B]))
    ({ State.reset with sendAnswers := [.fail] }))).map (fun t => (t.calls, t.seq)) = some ([.send (hex [0xAA,
    0xBB, 0xCC, 0x11, 0x01, 0x00, 0x00, 0x00, 0x00, 0x00, 0x00, 0x04, 0x04, 0xA2, 0x13, 0x9B, 0x7E, 0x2A, 0xE4,
    0xFC]), .diag (.sendFailed (hex [0x00, 0x00]))], 1#16) := by decide +kernel

/-- V45. -/
theorem test_send_scan : (nextOf (exec (.sendScan 5 []) (State.reset))).map (fun t => (t.calls, t.result)) =
    some ([.send (hex [0xAA, 0xBB, 0xCC, 0x11, 0x01, 0x00, 0x00, 0x00, 0x00, 0x00, 0x00, 0x00, 0x16, 0xFD,
    0xCC, 0xC4])], some (.scanSent (.sent 0#16))) := by decide +kernel

/-- V45. -/
theorem test_send_scan_rejects : (nextOf (exec (.sendScan 5 (hex [0x01, 0x02, 0x03, 0x04, 0x05, 0x06, 0x07,
    0x08, 0x09, 0x0A, 0x0B])) (State.reset))).map (fun t => (t.calls, t.seq, t.result)) = some ([.diag
    (.encodeRejected 11)], 0#16, some (.scanSent .rejected)) := by decide +kernel

/-- V38. -/
theorem test_send_status : (nextOf (exec (.sendStatus 3000 (hex [0x6F, 0x70, 0x65, 0x6E]))
    ({ State.reset with seq := 1#16 }))).map (fun t => (t.calls, t.seq)) = some ([.send (hex [0xAA, 0xBB, 0xCC,
    0x61, 0x01, 0x01, 0x00, 0x03, 0x00, 0x00, 0x00, 0x04, 0x6F, 0x70, 0x65, 0x6E, 0x91, 0xCE, 0x86, 0x36])],
    2#16) := by decide +kernel

/-- V40. -/
theorem test_send_ack : (nextOf (exec (.sendAck 2000 (hex [0x69, 0x64, 0x31]) 0x31#8 (hex [0x4F, 0x4B]))
    (State.reset))).map (fun t => (t.calls, t.seq)) = some ([.send (hex [0xAA, 0xBB, 0xCC, 0x61, 0x01, 0x00,
    0x00, 0x02, 0x00, 0x00, 0x00, 0x0C, 0x41, 0x43, 0x4B, 0x3A, 0x69, 0x64, 0x31, 0x3A, 0x31, 0x3A, 0x4F, 0x4B,
    0xCA, 0x49, 0xAD, 0x17])], 1#16) := by decide +kernel

/-- V41: cut to 16 bytes. -/
theorem test_send_ack_cut : (nextOf (exec (.sendAck 7000 (hex [0x63, 0x6F, 0x6D, 0x6D, 0x61, 0x6E, 0x64, 0x2D,
    0x30, 0x30, 0x30, 0x31]) 0x31#8 (hex [0x4F, 0x4B])) ({ State.reset with seq := 5#16 }))).map (fun t =>
    (t.calls, t.seq)) = some ([.send (hex [0xAA, 0xBB, 0xCC, 0x61, 0x01, 0x05, 0x00, 0x07, 0x00, 0x00, 0x00,
    0x10, 0x41, 0x43, 0x4B, 0x3A, 0x63, 0x6F, 0x6D, 0x6D, 0x61, 0x6E, 0x64, 0x2D, 0x30, 0x30, 0x30, 0x31, 0x7D,
    0xB5, 0xD3, 0x5A])], 6#16) := by decide +kernel

/-- Program P7, step 2. -/
theorem test_heartbeat_due : (nextOf (exec (.heartbeat 30000) (State.resetWith heartbeatConfig))).map (fun t =>
    (t.calls, t.hbLast)) = some ([.send (hex [0xAA, 0xBB, 0xCC, 0x61, 0x01, 0x00, 0x00, 0x1E, 0x00, 0x00, 0x00,
    0x09, 0x68, 0x65, 0x61, 0x72, 0x74, 0x62, 0x65, 0x61, 0x74, 0x25, 0xA0, 0xF9, 0xD2])], 30000) :=
    by decide +kernel

/-- Program P7, step 1. -/
theorem test_heartbeat_early : (nextOf (exec (.heartbeat 29999) (State.resetWith heartbeatConfig))).map (fun t
    => (t.calls, t.hbLast)) = some ([], 0) := by decide +kernel

/-- V30: the block stamps its own header fields. -/
theorem test_scan_row : (nextOf (exec (.scan ⟨0#4, 0#4, 0#4, 9#16, 9#32⟩ (hex [0x04, 0xA2, 0x13, 0x9B]))
    (State.reset))).map (fun t => (t.calls, t.seq)) = some ([.send (hex [0xAA, 0xBB, 0xCC, 0x11, 0x01, 0x00,
    0x00, 0x00, 0x00, 0x00, 0x00, 0x04, 0x04, 0xA2, 0x13, 0x9B, 0x7E, 0x2A, 0xE4, 0xFC])], 1#16) :=
    by decide +kernel

/-- V38. -/
theorem test_status_row : (nextOf (exec (.status ⟨0#4, 0#4, 0#4, 9#16, 9#32⟩ (hex [0x6F, 0x70, 0x65, 0x6E]))
    ({ State.reset with seq := 1#16, clock := 3000 }))).map (fun t => (t.calls, t.seq)) = some ([.send (hex
    [0xAA, 0xBB, 0xCC, 0x61, 0x01, 0x01, 0x00, 0x03, 0x00, 0x00, 0x00, 0x04, 0x6F, 0x70, 0x65, 0x6E, 0x91,
    0xCE, 0x86, 0x36])], 2#16) := by decide +kernel

/-- V40. -/
theorem test_ack_row : (nextOf (exec (.ack ⟨0#4, 0#4, 0#4, 9#16, 9#32⟩ (hex [0x41, 0x43, 0x4B, 0x3A, 0x69,
    0x64, 0x31, 0x3A, 0x31, 0x3A, 0x4F, 0x4B])) ({ State.reset with clock := 2000 }))).map (fun t => (t.calls,
    t.seq)) = some ([.send (hex [0xAA, 0xBB, 0xCC, 0x61, 0x01, 0x00, 0x00, 0x02, 0x00, 0x00, 0x00, 0x0C, 0x41,
    0x43, 0x4B, 0x3A, 0x69, 0x64, 0x31, 0x3A, 0x31, 0x3A, 0x4F, 0x4B, 0xCA, 0x49, 0xAD, 0x17])], 1#16) :=
    by decide +kernel

/-- V124. -/
theorem test_grant_row : (nextOf (exec (.grant) ({ waiting with clock := 200 }))).map (fun t => (t.calls,
    t.xstate, t.holdActive, t.holdDeadline)) = some ([.report .granted, .act .openGate, .send (hex [0xAA, 0xBB,
    0xCC, 0x61, 0x01, 0x01, 0x00, 0x00, 0x00, 0x00, 0x00, 0x04, 0x6F, 0x70, 0x65, 0x6E, 0x8C, 0x2D, 0x46,
    0x24])], .granted, true, 5200) := by decide +kernel

/-- V127. -/
theorem test_grant_row_stray : (nextOf (exec (.grant) (State.reset))).map (fun t => (t.calls, t.xstate)) = some
    ([.diag (.strayDecision .grant)], .idle) := by decide +kernel

/-- Program P8, step 2. -/
theorem test_deny_row : (nextOf (exec (.deny) ({ waiting with clock := 200 }))).map (fun t => (t.calls,
    t.xstate, t.nextPoll)) = some ([.report .denied], .idle, 0) := by decide +kernel

/-- Program P4, step 1. -/
theorem test_remote_unlock_row : (nextOf (exec (.remoteUnlock (hex [0x69, 0x64, 0x31]) (hex [0x61, 0x6C, 0x69,
    0x63, 0x65]) (hex [0x39, 0x39, 0x39, 0x39, 0x39])) ({ State.reset with clock := 1000 }))).map (fun t =>
    (t.calls, t.holdDeadline, t.cmdDuration, t.seq)) = some ([.act .openGate], 31000, 30000, 0#16) :=
    by decide +kernel

/-- Program P4, step 4. -/
theorem test_remote_lock_row : (nextOf (exec (.remoteLock (hex [0x63, 0x37]) (hex [0x62, 0x6F, 0x62]))
    ({ State.reset with clock := 31050, seq := 2#16 }))).map (fun t => (t.calls, t.cmdValid, t.seq)) = some
    ([.act .closeGate, .send (hex [0xAA, 0xBB, 0xCC, 0x61, 0x01, 0x02, 0x00, 0x1F, 0x00, 0x00, 0x00, 0x0B,
    0x41, 0x43, 0x4B, 0x3A, 0x63, 0x37, 0x3A, 0x31, 0x3A, 0x4F, 0x4B, 0x1D, 0x63, 0x5E, 0x37]), .send (hex
    [0xAA, 0xBB, 0xCC, 0x61, 0x01, 0x03, 0x00, 0x1F, 0x00, 0x00, 0x00, 0x04, 0x63, 0x6C, 0x6F, 0x73, 0xF6,
    0x01, 0x0C, 0x54])], false, 4#16) := by decide +kernel

/-- Program P5, step 2. -/
theorem test_invalid_unlock_row : (nextOf (exec (.invalidUnlock [hex [0x69, 0x64, 0x31], hex [0x61, 0x6C, 0x69,
    0x63, 0x65]]) (State.reset))).map (fun t => (t.calls, t.holdActive)) = some ([.diag (.invalidCommandFormat
    .unlock), .send (hex [0xAA, 0xBB, 0xCC, 0x61, 0x01, 0x00, 0x00, 0x00, 0x00, 0x00, 0x00, 0x10, 0x41, 0x43,
    0x4B, 0x3A, 0x69, 0x64, 0x31, 0x3A, 0x30, 0x3A, 0x42, 0x41, 0x44, 0x46, 0x4D, 0x54, 0x6A, 0x73, 0xF7,
    0xBE])], false) := by decide +kernel

/-- V43, V94: the empty id. -/
theorem test_invalid_unlock_row_empty : (nextOf (exec (.invalidUnlock [])
    ({ State.reset with seq := 2#16 }))).map (fun t => (t.calls)) = some ([.diag (.invalidCommandFormat
    .unlock), .send (hex [0xAA, 0xBB, 0xCC, 0x61, 0x01, 0x02, 0x00, 0x00, 0x00, 0x00, 0x00, 0x0D, 0x41, 0x43,
    0x4B, 0x3A, 0x3A, 0x30, 0x3A, 0x42, 0x41, 0x44, 0x46, 0x4D, 0x54, 0x0B, 0xC2, 0x33, 0xF2])]) :=
    by decide +kernel

/-- Program P5, step 3. -/
theorem test_invalid_lock_row : (nextOf (exec (.invalidLock [hex [0x63, 0x37]]) (State.reset))).map (fun t =>
    (t.calls, t.seq)) = some ([.diag (.invalidCommandFormat .lock)], 0#16) := by decide +kernel

/-- Program P6, step 4. -/
theorem test_unrecognized_row : (nextOf (exec (.unrecognized (hex [0x1D, 0xF7, 0x7D, 0x14, 0xF1]))
    (State.reset))).map (fun t => (t.calls)) = some ([.diag (.unrecognizedToken 5)]) := by decide +kernel

/-- V121, V128. -/
theorem test_loop_step_sensor_first : (nextOf (exec (.loopStep 0)
    ({ State.reset with sensorAnswers := [some scanId], pollAnswers := [some grantFrame] }))).map (fun t =>
    (t.calls, t.xdeadline, t.pollAnswers.length)) = some ([.send (hex [0xAA, 0xBB, 0xCC, 0x11, 0x01, 0x00,
    0x00, 0x00, 0x00, 0x00, 0x00, 0x04, 0x04, 0xA2, 0x13, 0x9B, 0x7E, 0x2A, 0xE4, 0xFC])], 12000, 1) :=
    by decide +kernel

/-- V125. -/
theorem test_loop_step_deadline_first : (nextOf (exec (.loopStep 12000)
    ({ waiting with pollAnswers := [some grantFrame] }))).map (fun t => (t.calls, t.xstate,
    t.pollAnswers.length)) = some ([.diag (.exchangeTimeout 0#16), .report .timedOut], .idle, 1) :=
    by decide +kernel

/-- Program P8, step 4. -/
theorem test_x_open_longest : (nextOf (exec (.xOpen 1002 (hex [0x00, 0x00, 0x00, 0x00, 0x00, 0x00, 0x00, 0x00,
    0x00, 0x00])) (State.reset))).map (fun t => (t.calls, t.xseq, t.xdeadline, t.nextPoll)) = some ([.send (hex
    [0xAA, 0xBB, 0xCC, 0x11, 0x01, 0x00, 0x00, 0x01, 0x00, 0x00, 0x00, 0x0A, 0x00, 0x00, 0x00, 0x00, 0x00,
    0x00, 0x00, 0x00, 0x00, 0x00, 0x8B, 0x57, 0xE3, 0x25])], 0#16, 13002, 1002) := by decide +kernel

/-- Program P8, step 3. -/
theorem test_x_open_rejects : (nextOf (exec (.xOpen 1001 (hex [0x01, 0x02, 0x03, 0x04, 0x05, 0x06, 0x07, 0x08,
    0x09, 0x0A, 0x0B])) (State.reset))).map (fun t => (t.calls, t.xstate, t.seq)) = some ([.diag
    (.encodeRejected 11)], .idle, 0#16) := by decide +kernel

/-- V124. -/
theorem test_rx_process_grant : (nextOf (exec (.rxProcess 200 (hex [0xDD, 0xEE, 0xFF, 0x00, 0x00, 0x01, 0x05,
    0x47, 0x52, 0x41, 0x4E, 0x54])) (waiting))).map (fun t => (t.calls, t.holdDeadline)) = some ([.report
    .granted, .act .openGate, .send (hex [0xAA, 0xBB, 0xCC, 0x61, 0x01, 0x01, 0x00, 0x00, 0x00, 0x00, 0x00,
    0x04, 0x6F, 0x70, 0x65, 0x6E, 0x8C, 0x2D, 0x46, 0x24])], 5200) := by decide +kernel

/-- V64, R187: the exchange stays open. -/
theorem test_rx_process_malformed : (nextOf (exec (.rxProcess 200 (hex [0xDD, 0xEE, 0xFF, 0x00, 0x00, 0x01,
    0x01])) (waiting))).map (fun t => (t.calls, t.xstate)) = some ([.diag (.malformedFrame .lengthMismatch)],
    .awaitingDecision) := by decide +kernel

/-- V124. -/
theorem test_x_grant : (nextOf (exec (.xGrant 200) (waiting))).map (fun t => (t.calls, t.xoutcome, t.holdCause,
    t.holdDeadline)) = some ([.report .granted, .act .openGate, .send (hex [0xAA, 0xBB, 0xCC, 0x61, 0x01, 0x01,
    0x00, 0x00, 0x00, 0x00, 0x00, 0x04, 0x6F, 0x70, 0x65, 0x6E, 0x8C, 0x2D, 0x46, 0x24])], .granted, .grant,
    5200) := by decide +kernel

/-- Program P8, step 2. -/
theorem test_x_deny : (nextOf (exec (.xDeny 1000) (waiting))).map (fun t => (t.calls, t.xstate, t.xdeadline,
    t.xoutcome)) = some ([.report .denied], .idle, 0, .pending) := by decide +kernel

/-- Program P5, step 8. -/
theorem test_x_timeout : (nextOf (exec (.xTimeout 13200) ({ waiting with xseq := 1#16 }))).map (fun t =>
    (t.calls, t.xstate, t.xseq)) = some ([.diag (.exchangeTimeout 1#16), .report .timedOut], .idle, 0#16) :=
    by decide +kernel

/-- R145. -/
theorem test_x_close : (nextOf (exec (.xClose) (waiting))).map (fun t => (t.xstate, t.xdeadline, t.nextPoll,
    t.calls, t.seq)) = some (.idle, 0, 0, [], 1#16) := by decide +kernel

/-- Program P4, step 3. -/
theorem test_hold_finish_unlock : (nextOf (exec (.holdFinish 31000) (unlockHold))).map (fun t => (t.calls,
    t.cmdValid, t.cmdId, t.holdActive)) = some ([.act .closeGate, .send (hex [0xAA, 0xBB, 0xCC, 0x61, 0x01,
    0x00, 0x00, 0x1F, 0x00, 0x00, 0x00, 0x0C, 0x41, 0x43, 0x4B, 0x3A, 0x69, 0x64, 0x31, 0x3A, 0x31, 0x3A, 0x4F,
    0x4B, 0x6C, 0x3F, 0x59, 0x98]), .send (hex [0xAA, 0xBB, 0xCC, 0x61, 0x01, 0x01, 0x00, 0x1F, 0x00, 0x00,
    0x00, 0x04, 0x63, 0x6C, 0x6F, 0x73, 0x9D, 0x13, 0x94, 0xA3])], false, [], false) := by decide +kernel

/-- Program P6, step 3, with the key 5A A5 3C. -/
theorem test_hold_finish_grant : (nextOf (exec (.holdFinish 5100) (grantHold))).map (fun t => (t.calls,
    t.xstate, t.holdActive)) = some ([.act .closeGate, .send (hex [0xAA, 0xBB, 0xCC, 0x61, 0x01, 0x02, 0x00,
    0x05, 0x00, 0x00, 0x00, 0x04, 0x39, 0xC9, 0x53, 0x29, 0x4A, 0xA5, 0xEA, 0xC1])], .idle, false) :=
    by decide +kernel

/-- Program P4, step 2. -/
theorem test_hold_wait : (nextOf (exec (.holdWait 20000) (unlockHold))).map (fun t => (t.calls, t.holdDeadline,
    t.cmdDuration)) = some ([], 31000, 30000) := by decide +kernel

/-- R172: the hold is not touched. -/
theorem test_cmd_clear : (nextOf (exec (.cmdClear) (unlockHold))).map (fun t => (t.cmdValid, t.cmdId,
    t.cmdInitiator, t.cmdDuration, t.holdActive)) = some (false, [], [], 0, true) := by decide +kernel

/-- R210, R229: no actuation. -/
theorem test_reset : (nextOf (exec (.reset) ({ unlockHold with seq := 7#16, hbLast := 9 }))).map (fun t =>
    (t.seq, t.holdActive, t.cmdId, t.hbLast, t.calls)) = some (0#16, false, [], 0, []) := by decide +kernel

/-- V127, through the machine's step. -/
theorem test_step_polls_and_runs : (nextOf (step ({ State.reset with pollAnswers := [some grantFrame] }))).map
    (fun t => (t.calls, t.pollAnswers)) = some ([.diag (.strayDecision .grant)], []) := by decide +kernel

/-- R5, D33. -/
theorem test_step_refuses_the_bus_form : refusalOf (step ({ State.reset with requests := [.busCommand []] })) =
    some .busCommandForm := by decide +kernel

/-! ### The numbers of the enumerations (R31, R185) -/

theorem test_codes : [XState.idle, .scanSent, .awaitingDecision, .granted, .denied, .timedOut].map XState.code
    = [0#3, 1#3, 2#3, 3#3, 4#3, 5#3] ∧ [XOutcome.pending, .granted, .denied, .timedOut].map XOutcome.code =
    [0#2, 1#2, 2#2, 3#2] ∧ [HoldCause.grant, .unlock].map HoldCause.code = [0#1, 1#1] ∧ [CmdKind.unlock,
    .lock].map CmdKind.code = [0#1, 1#1] ∧ [Diag.malformedFrame .tooShort, .checksumMismatch,
    .unrecognizedToken 0, .exchangeTimeout 0, .invalidCommandFormat .lock, .sendFailed [], .encodeRejected 11,
    .strayDecision .deny].map Diag.code = [1, 2, 3, 4, 5, 6, 7, 8] := by decide +kernel

/-! ### Witnesses: concrete states and operands that meet the hypotheses of each obligation, clause by clause -/

theorem witness_EncodedFrameShape : ∃ (stage : Stage) (c : Config) (t d : Nibble) (q : BitVec 16) (ts : BitVec
    32) (p F : Bytes), (∀ P, (stage P).length = P.length) ∧ encWith stage c t d q ts p = .frame F := ⟨fun P =>
    P, Config.ref, 1#4, 1#4, 0#16, 0#32, hex [0x04, 0xA2, 0x13, 0x9B], _, fun _ => rfl, rfl⟩

theorem witness_DecUpTestsThenFields : (hex [0xAA, 0xBB, 0xCC, 0x11, 0x01, 0x00, 0x00, 0x00, 0x00, 0x00, 0x00,
    0x04, 0x04, 0xA2, 0x13, 0x9B, 0x7E, 0x2A, 0xE4, 0xFC]).take 15 ≠ [] ∧ ((hex [0xAA, 0xBB, 0xCC, 0x11, 0x01,
    0x00, 0x00, 0x00, 0x00, 0x00, 0x00, 0x04, 0x04, 0xA2, 0x13, 0x9B, 0x7E, 0x2A, 0xE4, 0xFC]).take 15).length
    < 16 ∧ (16 ≤ (hex [0xAB, 0xBB, 0xCC, 0x61, 0x01, 0x00, 0x00, 0x00, 0x00, 0x00, 0x00, 0x00, 0x05, 0xBE,
    0x17, 0x8D]).length ∧ (hex [0xAB, 0xBB, 0xCC, 0x61, 0x01, 0x00, 0x00, 0x00, 0x00, 0x00, 0x00, 0x00, 0x05,
    0xBE, 0x17, 0x8D]).take 3 ≠ Config.ref.magic.bytes) ∧ (16 ≤ (hex [0xAA, 0xBB, 0xCC, 0x11, 0x01, 0x00, 0x00,
    0x00, 0x00, 0x00, 0x00, 0x05, 0x04, 0xA2, 0x13, 0x9B, 0x7E, 0x2A, 0xE4, 0xFC]).length ∧ (hex [0xAA, 0xBB,
    0xCC, 0x11, 0x01, 0x00, 0x00, 0x00, 0x00, 0x00, 0x00, 0x04, 0x04, 0xA2, 0x13, 0x9B, 0x7E, 0x2A, 0xE4,
    0xFC]).take 3 = Config.ref.magic.bytes ∧ 16 + (memRead1 (hex [0xAA, 0xBB, 0xCC, 0x11, 0x01, 0x00, 0x00,
    0x00, 0x00, 0x00, 0x00, 0x05, 0x04, 0xA2, 0x13, 0x9B, 0x7E, 0x2A, 0xE4, 0xFC]) 11).toNat ≠ 20) ∧ (16 ≤ (hex
    [0xAA, 0xBB, 0xCC, 0x61, 0x01, 0x00, 0x00, 0x00, 0x00, 0x00, 0x00, 0x00, 0x05, 0xBE, 0x17, 0x8D]).length ∧
    (hex [0xAA, 0xBB, 0xCC, 0x61, 0x01, 0x00, 0x00, 0x00, 0x00, 0x00, 0x00, 0x00, 0x05, 0xBE, 0x17, 0x8D]).take
    3 = Config.ref.magic.bytes ∧ 16 + (memRead1 (hex [0xAA, 0xBB, 0xCC, 0x61, 0x01, 0x00, 0x00, 0x00, 0x00,
    0x00, 0x00, 0x00, 0x05, 0xBE, 0x17, 0x8D]) 11).toNat = (hex [0xAA, 0xBB, 0xCC, 0x61, 0x01, 0x00, 0x00,
    0x00, 0x00, 0x00, 0x00, 0x00, 0x05, 0xBE, 0x17, 0x8D]).length) := by decide +kernel

theorem witness_DecDnTestsThenFields : (hex [0xDD, 0xEE, 0xFF, 0x00, 0x00, 0x01]).length < 7 ∧ (7 ≤ (hex [0xDD,
    0xEE, 0xFE, 0x00, 0x00, 0x02, 0x09]).length ∧ (hex [0xDD, 0xEE, 0xFE, 0x00, 0x00, 0x02, 0x09]).take 3 ≠
    Config.ref.rxPrefix.bytes) ∧ ((hex [0xDD, 0xEE, 0xFF, 0x00, 0x00, 0x02, 0x00]).take 3 =
    Config.ref.rxPrefix.bytes ∧ memRead1 (hex [0xDD, 0xEE, 0xFF, 0x00, 0x00, 0x02, 0x00]) 5 ≠
    Config.ref.rxChannel) ∧ (memRead1 (hex [0xDD, 0xEE, 0xFF, 0x00, 0x00, 0x01, 0x01]) 5 = Config.ref.rxChannel
    ∧ 7 + (memRead1 (hex [0xDD, 0xEE, 0xFF, 0x00, 0x00, 0x01, 0x01]) 6).toNat ≠ 7) ∧ ((hex [0xDD, 0xEE, 0xFF,
    0x00, 0x00, 0x01, 0x00]).take 3 = Config.ref.rxPrefix.bytes ∧ memRead1 (hex [0xDD, 0xEE, 0xFF, 0x00, 0x00,
    0x01, 0x00]) 5 = Config.ref.rxChannel ∧ 7 + (memRead1 (hex [0xDD, 0xEE, 0xFF, 0x00, 0x00, 0x01, 0x00])
    6).toNat = (hex [0xDD, 0xEE, 0xFF, 0x00, 0x00, 0x01, 0x00]).length) := by decide +kernel

theorem witness_DecDnTestsThenFields_with_trailer : (checkedConfig : Config).dnCrc = true ∧ (grantFrame.take
    10).length < 7 + 4 ∧ 7 + (memRead1 (hex [0xDD, 0xEE, 0xFF, 0x00, 0x00, 0x01, 0x05, 0x47, 0x52, 0x41, 0x4E,
    0x54, 0xAF, 0xBD, 0x7B, 0x18]) 6).toNat + 4 = (hex [0xDD, 0xEE, 0xFF, 0x00, 0x00, 0x01, 0x05, 0x47, 0x52,
    0x41, 0x4E, 0x54, 0xAF, 0xBD, 0x7B, 0x18]).length ∧ 7 + (memRead1 (hex [0xDD, 0xEE, 0xFF, 0x00, 0x00, 0x01,
    0x05, 0x47, 0x52, 0x41, 0x4E, 0x54]) 6).toNat + 4 ≠ (hex [0xDD, 0xEE, 0xFF, 0x00, 0x00, 0x01, 0x05, 0x47,
    0x52, 0x41, 0x4E, 0x54]).length := by decide +kernel

theorem witness_WrongLengthIsRejected : (7 ≤ (hex [0xDD, 0xEE, 0xFF, 0x00, 0x00, 0x01, 0x01]).length ∧ (hex
    [0xDD, 0xEE, 0xFF, 0x00, 0x00, 0x01, 0x01]).take 3 = Config.ref.rxPrefix.bytes ∧ memRead1 (hex [0xDD, 0xEE,
    0xFF, 0x00, 0x00, 0x01, 0x01]) 5 = Config.ref.rxChannel ∧ Config.ref.dnCrc = false ∧ 7 + (memRead1 (hex
    [0xDD, 0xEE, 0xFF, 0x00, 0x00, 0x01, 0x01]) 6).toNat ≠ 7) ∧ ((hex [0xAA, 0xBB, 0xCC, 0x61, 0x01, 0x00,
    0x00, 0x00, 0x00, 0x00, 0x00, 0x01, 0x05, 0xBE, 0x17, 0x8D]).length = 16 ∧ (hex [0xAA, 0xBB, 0xCC, 0x61,
    0x01, 0x00, 0x00, 0x00, 0x00, 0x00, 0x00, 0x01, 0x05, 0xBE, 0x17, 0x8D]).take 3 = Config.ref.magic.bytes ∧
    16 + (memRead1 (hex [0xAA, 0xBB, 0xCC, 0x61, 0x01, 0x00, 0x00, 0x00, 0x00, 0x00, 0x00, 0x01, 0x05, 0xBE,
    0x17, 0x8D]) 11).toNat ≠ 16) := by decide +kernel

theorem witness_DownlinkBytes3And4Ignored : Config.ref.dnCrc = false := by decide +kernel

theorem witness_UplinkRoundTrip : (Config.mtScan = Config.mtScan → (hex [0x01, 0x02, 0x03, 0x04, 0x05, 0x06,
    0x07, 0x08, 0x09, 0x0A]).length ≤ 10) ∧ (Config.mtScan ≠ Config.mtScan → (hex [0x01, 0x02, 0x03, 0x04,
    0x05, 0x06, 0x07, 0x08, 0x09, 0x0A]).length ≤ 16) ∧ (15#4 = Config.mtScan → (hex [0x41, 0x42, 0x43, 0x44,
    0x45, 0x46, 0x47, 0x48, 0x49, 0x4A, 0x4B, 0x4C, 0x4D, 0x4E, 0x4F, 0x50]).length ≤ 10) ∧ (15#4 ≠
    Config.mtScan → (hex [0x41, 0x42, 0x43, 0x44, 0x45, 0x46, 0x47, 0x48, 0x49, 0x4A, 0x4B, 0x4C, 0x4D, 0x4E,
    0x4F, 0x50]).length ≤ 16) := by decide +kernel

theorem witness_RoundTripForAnyStage : ∃ (stage : Stage), (∀ P, (stage P).length = P.length) ∧ (∀ P, stage
    (stage P) = P) ∧ (15#4 = Config.mtScan → (hex [0x41, 0x42, 0x43, 0x44, 0x45, 0x46, 0x47, 0x48, 0x49, 0x4A,
    0x4B, 0x4C, 0x4D, 0x4E, 0x4F, 0x50]).length ≤ 10) ∧ (15#4 ≠ Config.mtScan → (hex [0x41, 0x42, 0x43, 0x44,
    0x45, 0x46, 0x47, 0x48, 0x49, 0x4A, 0x4B, 0x4C, 0x4D, 0x4E, 0x4F, 0x50]).length ≤ 16) := ⟨fun P => P, fun _
    => rfl, fun _ => rfl, by decide, by decide⟩

theorem witness_BufferReadAfterWrite : 3 ≤ (hex [1, 2, 3]).length ∧ (2 : Nat) ≤ (hex [1, 2, 3, 4, 5, 6,
    7]).length ∧ (3 : Nat) ≠ 2 ∧ ((1 : Nat) < 2 ∨ 2 + 2 ≤ 1) ∧ ((4 : Nat) < 2 ∨ 2 + 2 ≤ 4) ∧ ((6 : Nat) < 2 ∨ 2
    + 4 ≤ 6) := by decide +kernel

theorem witness_Crc32DetectsAnyOneByteChange : (hex [0x00])[0]? = some 0x00#8 ∧ 0x01#8 ≠ 0x00#8 :=
    by decide +kernel

theorem witness_ChecksumAppendAndVerify : 3 ≤ (hex [0xAA, 0xBB, 0xCC]).length := by decide +kernel

theorem witness_XorTransformByteByByte : (hex [0x04, 0xA2, 0x13, 0x9B])[3]? = some 0x9B#8 ∧ (hex [0x5A, 0xA5,
    0x3C])[3 % (hex [0x5A, 0xA5, 0x3C]).length]? = some 0x5A#8 ∧ ([] : Bytes) = [] := by decide +kernel

theorem witness_ParseDurationReadsDigits : (hex [0x30, 0x39] ≠ [] ∧ ∀ b ∈ hex [0x30, 0x39], 0x30 ≤ b.toNat ∧
    b.toNat ≤ 0x39) ∧ ¬ (([] : Bytes) ≠ [] ∧ ∀ b ∈ ([] : Bytes), 0x30 ≤ b.toNat ∧ b.toNat ≤ 0x39) ∧ ¬ (hex
    [0x3A] ≠ [] ∧ ∀ b ∈ hex [0x3A], 0x30 ≤ b.toNat ∧ b.toNat ≤ 0x39) := by decide +kernel

theorem witness_ClampDurationPolicy : (none : Option Nat) = none ∧ (30000 : Nat) < 30001 ∧ (999 : Nat) < 1000 ∧
    (1000 : Nat) ≤ 1000 ∧ (30000 : Nat) ≤ 30000 := by decide +kernel

theorem witness_ParseCmdByFieldCount : (fieldOk (hex [0x69, 0x64, 0x31]) ∧ fieldOk ([] : Bytes) ∧ hex [0x52,
    0x45, 0x4D, 0x4F, 0x54, 0x45, 0x5F, 0x55, 0x4E, 0x4C, 0x4F, 0x43, 0x4B, 0x3A, 0x69, 0x64, 0x31, 0x3A, 0x3A]
    = joinFields [Config.remoteUnlockText, hex [0x69, 0x64, 0x31], [], []]) ∧ (([] : List Bytes).length ≠ 3 ∧
    hex [0x52, 0x45, 0x4D, 0x4F, 0x54, 0x45, 0x5F, 0x55, 0x4E, 0x4C, 0x4F, 0x43, 0x4B] = joinFields
    (Config.remoteUnlockText :: [])) ∧ (hex [0x52, 0x45, 0x4D, 0x4F, 0x54, 0x45, 0x5F, 0x55, 0x4E, 0x4C, 0x4F,
    0x43, 0x4B, 0x3A, 0x3A, 0x3A, 0x3A] = joinFields (Config.remoteUnlockText :: [[], [], [], []])) ∧ (hex
    [0x52, 0x45, 0x4D, 0x4F, 0x54, 0x45, 0x5F, 0x4C, 0x4F, 0x43, 0x4B, 0x3A, 0x63, 0x37, 0x3A, 0x62, 0x6F,
    0x62] = joinFields [Config.remoteLockText, hex [0x63, 0x37], hex [0x62, 0x6F, 0x62]]) ∧ (([] : List
    Bytes).length ≠ 2 ∧ hex [0x52, 0x45, 0x4D, 0x4F, 0x54, 0x45, 0x5F, 0x4C, 0x4F, 0x43, 0x4B] = joinFields
    (Config.remoteLockText :: [])) := by decide +kernel

theorem witness_ParseCmdByFieldCount_other : ∀ f : List Bytes, (∀ x ∈ f, fieldOk x) → ([] : Bytes) ≠ joinFields
    (Config.remoteUnlockText :: f) ∧ ([] : Bytes) ≠ joinFields (Config.remoteLockText :: f) := fun f _ => ⟨fun
    h => absurd (h ▸ joinFields_length_le Config.remoteUnlockText f) (by decide), fun h => absurd (h ▸
    joinFields_length_le Config.remoteLockText f) (by decide)⟩

theorem witness_UnlockDurationAlwaysInRange : parseCmd (hex [0x52, 0x45, 0x4D, 0x4F, 0x54, 0x45, 0x5F, 0x55,
    0x4E, 0x4C, 0x4F, 0x43, 0x4B, 0x3A, 0x61, 0x3A, 0x62, 0x3A, 0x31, 0x30, 0x30, 0x30]) = .unlock (hex [0x61])
    (hex [0x62]) 1000 := by decide +kernel

theorem witness_TxFrameSendsAndCounts : (Config.mtScan = Config.mtScan → (hex [0x01, 0x02, 0x03, 0x04, 0x05,
    0x06, 0x07, 0x08, 0x09, 0x0A]).length ≤ Config.idMax) ∧ (6#4 = Config.mtScan → (hex [0x41, 0x42, 0x43,
    0x44, 0x45, 0x46, 0x47, 0x48, 0x49, 0x4A, 0x4B, 0x4C, 0x4D, 0x4E, 0x4F, 0x50, 0x51, 0x52, 0x53,
    0x54]).length ≤ Config.idMax) := by decide +kernel

theorem witness_SendScanRejectsLongOrSends : 10 < (hex [0x01, 0x02, 0x03, 0x04, 0x05, 0x06, 0x07, 0x08, 0x09,
    0x0A, 0x0B]).length ∧ (hex [0x01, 0x02, 0x03, 0x04, 0x05, 0x06, 0x07, 0x08, 0x09, 0x0A]).length ≤ 10 :=
    by decide +kernel

theorem witness_SendStatusAndSendAck : State.reset.cfg.wf := by decide +kernel

theorem witness_UplinkRowsTransmit : State.reset.cfg.wf ∧ 10 < (hex [0x01, 0x02, 0x03, 0x04, 0x05, 0x06, 0x07,
    0x08, 0x09, 0x0A, 0x0B]).length ∧ (hex [0x01, 0x02, 0x03, 0x04, 0x05, 0x06, 0x07, 0x08, 0x09, 0x0A]).length
    ≤ 10 := by decide +kernel

theorem witness_HeartbeatWhenIntervalElapsed : State.reset.cfg.wf ∧ State.reset.cfg.heartbeatInterval = none ∧
    (State.resetWith heartbeatConfig).cfg.wf ∧ (State.resetWith heartbeatConfig).cfg.heartbeatInterval = some
    30000 ∧ 29999 < (State.resetWith heartbeatConfig).hbLast + 30000 ∧ (State.resetWith heartbeatConfig).hbLast
    + 30000 ≤ 30000 := by decide +kernel

theorem witness_AcknowledgmentCut : (hex [0x30, 0x31, 0x32, 0x33, 0x34, 0x35, 0x36, 0x37, 0x38, 0x39]).length ≤
    10 ∧ 10 < (hex [0x30, 0x31, 0x32, 0x33, 0x34, 0x35, 0x36, 0x37, 0x38, 0x39, 0x61]).length ∧ (hex [0x69,
    0x64, 0x31]).length + (hex [0x4F, 0x4B, 0x4F, 0x4B, 0x4F]).length ≤ 8 := by decide +kernel

theorem witness_RemoteLockClosesAndAcknowledges : State.reset.cfg.wf := by decide +kernel

theorem witness_InvalidUnlockIsAcknowledged : State.reset.cfg.wf := by decide +kernel

theorem witness_XOpenOpensOneExchange : 10 < (hex [0x01, 0x02, 0x03, 0x04, 0x05, 0x06, 0x07, 0x08, 0x09, 0x0A,
    0x0B]).length ∧ (hex [0x01, 0x02, 0x03, 0x04, 0x05, 0x06, 0x07, 0x08, 0x09, 0x0A]).length ≤ 10 :=
    by decide +kernel

theorem witness_HoldFinishByCause : ((grantHold : State).cfg.wf ∧ (grantHold : State).holdCause = .grant) ∧
    ((unlockHold : State).cfg.wf ∧ (unlockHold : State).holdCause = .unlock) := by decide +kernel

theorem witness_TokensResolveOrAreStray : (waiting : State).xstate = .awaitingDecision ∧ State.reset.xstate ≠
    .awaitingDecision := by decide +kernel

theorem witness_RxProcessDiscardsBadBuffers : dnReceive State.reset.cfg [] = .malformed .tooShort ∧ dnReceive
    (State.resetWith (checkedConfig)).cfg (hex [0xDD, 0xEE, 0xFF, 0x00, 0x00, 0x01, 0x05, 0x47, 0x72, 0x41,
    0x4E, 0x54, 0xAF, 0xBD, 0x7B, 0x18]) = .checksumMismatch := by decide +kernel

theorem witness_RxProcessRunsTheDecodedRow : grantFrame.take 3 = State.reset.cfg.rxPrefix.bytes ∧ decode
    State.reset.cfg grantFrame = .instr .grant := by decide +kernel

theorem witness_LoopStepInAHold : (unlockHold : State).holdActive = true ∧ 30999 < (unlockHold :
    State).holdDeadline ∧ (unlockHold : State).holdDeadline ≤ 31000 := by decide +kernel

theorem witness_LoopStepAwaitingDecision : (waiting : State).holdActive = false ∧ (waiting : State).xstate =
    .awaitingDecision ∧ (waiting : State).xdeadline ≤ 12000 ∧ (150 < (waiting : State).xdeadline ∧ 199 <
    (waiting : State).nextPoll) ∧ (11999 < (waiting : State).xdeadline ∧ (waiting : State).nextPoll ≤ 200 ∧
    (waiting : State).pollAnswers.headD none = none) := by decide +kernel

theorem witness_LoopStepAwaitingDecision_polled : (polling : State).holdActive = false ∧ (polling :
    State).xstate = .awaitingDecision ∧ 200 < (polling : State).xdeadline ∧ (polling : State).nextPoll ≤ 200 ∧
    (polling : State).pollAnswers.headD none = some grantFrame := by decide +kernel

theorem witness_LoopStepIdle : State.reset.holdActive = false ∧ State.reset.xstate = .idle ∧
    State.reset.sensorAnswers.headD none = none ∧ State.reset.pollAnswers.headD none = none ∧
    ({ State.reset with sensorAnswers := [some []] } : State).sensorAnswers.headD none = some [] ∧
    ({ State.reset with pollAnswers := [some grantFrame] } : State).sensorAnswers.headD none = none ∧
    ({ State.reset with pollAnswers := [some grantFrame] } : State).pollAnswers.headD none = some grantFrame :=
    by decide +kernel

theorem witness_StepRunsTheDecodedInstruction : State.reset.requests = [] ∧
    ({ State.reset with requests := [.call .reset rfl] } : State).requests = .call .reset rfl :: [] ∧ decode
    State.reset.cfg (bytesOfWord (96 / 8) 0x544E41524705010000FFEEDD) = .instr .grant ∧ (bytesOfWord (96 / 8)
    0x544E41524705010000FFEEDD).take 3 = State.reset.cfg.rxPrefix.bytes ∧ State.reset.holdActive = false ∧
    State.reset.xstate ≠ .awaitingDecision ∧ (waiting : State).holdActive = false ∧ (waiting : State).xstate =
    .awaitingDecision ∧ (waiting : State).cfg = State.reset.cfg := by decide +kernel

theorem witness_StepRunsTheDecodedInstruction_scan : decode State.reset.cfg (bytesOfWord (160 / 8) (wordOf (hex
    [0xAA, 0xBB, 0xCC, 0x11, 0x01, 0x00, 0x00, 0x00, 0x00, 0x00, 0x00, 0x04, 0x04, 0xA2, 0x13, 0x9B, 0x7E, 0x2A,
    0xE4, 0xFC]))) = .instr (.scan ⟨1#4, 0#4, 1#4, 0#16, 0#32⟩ scanId) ∧ State.reset.holdActive = false ∧
    State.reset.xstate = .idle := by decide +kernel

theorem witness_PolledFrameRunsInTheStep : ((polling : State).requests = [] ∧ (polling : State).holdActive =
    false ∧ grantFrame.take 3 = (polling : State).cfg.rxPrefix.bytes ∧ decode (polling : State).cfg grantFrame
    = .instr .grant ∧ (polling : State).pollAnswers.headD none = some grantFrame ∧ (polling : State).xstate =
    .awaitingDecision ∧ (polling : State).clock < (polling : State).xdeadline ∧ (polling : State).nextPoll ≤
    (polling : State).clock) ∧ (({ State.reset with pollAnswers := [some grantFrame] } : State).requests = [] ∧
    ({ State.reset with pollAnswers := [some grantFrame] } : State).holdActive = false ∧
    ({ State.reset with pollAnswers := [some grantFrame] } : State).pollAnswers.headD none = some grantFrame ∧
    ({ State.reset with pollAnswers := [some grantFrame] } : State).xstate = .idle ∧
    ({ State.reset with pollAnswers := [some grantFrame] } : State).sensorAnswers.headD none = none) :=
    by decide +kernel

theorem witness_StepRefusesOnlyTheBusForm : (∃ m rest, ({ State.reset with requests := [.busCommand []] } :
    State).requests = .busCommand m :: rest) ∧ ¬ ∃ m rest, State.reset.requests = .busCommand m :: rest :=
    ⟨⟨[], [], rfl⟩, by rintro ⟨_, _, h⟩; cases h⟩

theorem witness_StepKeepsInvariant : ∃ t, (unlockHold : State).Inv ∧ step (unlockHold) = .next t := ⟨_,
    ⟨by decide +kernel, by decide +kernel, by decide +kernel, by decide +kernel, by decide +kernel,
    by decide +kernel, by decide +kernel⟩, rfl⟩

theorem witness_PureOperationsTouchNoState : isPure (.crc32 []) = true ∧ isPure (.upReceive []) = true ∧
    step { State.reset with requests := [.call (.crc32 []) rfl] } =
      .next { State.reset with result := some (.checksum (crc32 [])) } := ⟨rfl, rfl, rfl⟩

theorem witness_OnlyListedOperationsWrite : writesSeq .deny = false ∧ writesExchange (.remoteLock [] []) =
    false ∧ writesHold (.xOpen 0 []) = false ∧ writesCommand (.xGrant 0) = false ∧ writesHeartbeat (.sendStatus
    0 []) = false := by decide +kernel

theorem witness_SeqCountsFramesSent : Instr.xClose ≠ .reset := by decide +kernel

theorem witness_EveryFrameSentIsWellFormed : ∃ t, ({ State.reset with sensorAnswers := [some scanId] } :
    State).Inv ∧ step ({ State.reset with sensorAnswers := [some scanId] }) = .next t ∧ hex [0xAA, 0xBB, 0xCC,
    0x11, 0x01, 0x00, 0x00, 0x00, 0x00, 0x00, 0x00, 0x04, 0x04, 0xA2, 0x13, 0x9B, 0x7E, 0x2A, 0xE4, 0xFC] ∈
    framesOf (newCalls ({ State.reset with sensorAnswers := [some scanId] }) t) := ⟨_, ⟨by decide +kernel, by decide +kernel, by decide +kernel, by decide +kernel, by decide +kernel,
    by decide +kernel, by decide +kernel⟩, rfl, by decide +kernel⟩

theorem witness_ReportExactlyOnResolution : (waiting : State).Inv := ⟨by decide +kernel, by decide +kernel, by decide +kernel, by decide +kernel, by decide +kernel,
    by decide +kernel, by decide +kernel⟩

theorem witness_TimeoutAtTheDeadline :
    ({ State.reset with sensorAnswers := [some scanId], pollAnswers := [none, none] } : State).xstate = .idle ∧
    ({ State.reset with sensorAnswers := [some scanId], pollAnswers := [none, none] } : State).holdActive =
    false ∧ ({ State.reset with sensorAnswers := [some scanId], pollAnswers := [none, none] } :
    State).sensorAnswers.headD none = some scanId ∧ scanId.length ≤ 10 ∧ (∀ a ∈
    ({ State.reset with sensorAnswers := [some scanId], pollAnswers := [none, none] } : State).pollAnswers, a =
    none) ∧ (∀ n ∈ [7, 11999], n < 0 + 12000) ∧ 0 + 12000 ≤ 12000 ∧ 12000 ≤ ([7, 11999].getLast?.getD 0) +
    ({ State.reset with sensorAnswers := [some scanId], pollAnswers := [none, none] } : State).cfg.pollInterval
    := by decide +kernel

theorem witness_UnlockHoldConsumesTheWindow :
    ({ unlockHold with holdDeadline := 13100, xstate := .awaitingDecision, xdeadline := 13000 } :
    State).holdActive = true ∧
    ({ unlockHold with holdDeadline := 13100, xstate := .awaitingDecision, xdeadline := 13000 } :
    State).holdCause = .unlock ∧
    ({ unlockHold with holdDeadline := 13100, xstate := .awaitingDecision, xdeadline := 13000 } : State).xstate
    = .awaitingDecision ∧
    ({ unlockHold with holdDeadline := 13100, xstate := .awaitingDecision, xdeadline := 13000 } :
    State).xdeadline ≤
    ({ unlockHold with holdDeadline := 13100, xstate := .awaitingDecision, xdeadline := 13000 } :
    State).holdDeadline ∧
    ({ unlockHold with holdDeadline := 13100, xstate := .awaitingDecision, xdeadline := 13000 } :
    State).holdDeadline ≤ 13100 ∧ 13100 ≤ 13100 := by decide +kernel

theorem witness_DecodeInvertsEncode_scan : Config.ref.wf ∧ Instr.wf Config.ref (.scan ⟨1#4, 0#4, 1#4, 0#16,
    0#32⟩ (hex [0x04, 0xA2, 0x13, 0x9B])) ∧ (encode Config.ref (.scan ⟨1#4, 0#4, 1#4, 0#16, 0#32⟩ (hex [0x04,
    0xA2, 0x13, 0x9B]))).isSome = true := by decide +kernel

theorem witness_DecodeInvertsEncode_status : Config.ref.wf ∧ Instr.wf Config.ref (.status ⟨1#4, 0#4, 1#4, 1#16,
    3#32⟩ (hex [0x6F, 0x70, 0x65, 0x6E])) ∧ (encode Config.ref (.status ⟨1#4, 0#4, 1#4, 1#16, 3#32⟩ (hex [0x6F,
    0x70, 0x65, 0x6E]))).isSome = true := by decide +kernel

theorem witness_DecodeInvertsEncode_ack : Config.ref.wf ∧ Instr.wf Config.ref (.ack ⟨1#4, 0#4, 1#4, 0#16, 2#32⟩
    (hex [0x41, 0x43, 0x4B, 0x3A, 0x69, 0x64, 0x31, 0x3A, 0x31, 0x3A, 0x4F, 0x4B])) ∧ (encode Config.ref (.ack
    ⟨1#4, 0#4, 1#4, 0#16, 2#32⟩ (hex [0x41, 0x43, 0x4B, 0x3A, 0x69, 0x64, 0x31, 0x3A, 0x31, 0x3A, 0x4F,
    0x4B]))).isSome = true := by decide +kernel

theorem witness_DecodeInvertsEncode_status_with_ack_text : Config.ref.wf ∧ Config.ref.mtAck = Config.mtStatus ∧
    fitsLengthByte (hex [0x41, 0x43, 0x4B, 0x3A]) ∧ isAckText (hex [0x41, 0x43, 0x4B, 0x3A]) ∧ (encode Config.ref
    (.status ⟨1#4, 0#4, 1#4, 0#16, 2#32⟩ (hex [0x41, 0x43, 0x4B, 0x3A]))).isSome = true := by decide +kernel

theorem witness_DecodeInvertsEncode_grant : Config.ref.wf ∧ Instr.wf Config.ref (.grant) ∧ (encode Config.ref
    (.grant)).isSome = true := by decide +kernel

theorem witness_DecodeInvertsEncode_deny : Config.ref.wf ∧ Instr.wf Config.ref (.deny) ∧ (encode Config.ref
    (.deny)).isSome = true := by decide +kernel

theorem witness_DecodeInvertsEncode_remote_unlock : Config.ref.wf ∧ Instr.wf Config.ref (.remoteUnlock (hex
    [0x69, 0x64, 0x31]) (hex [0x61, 0x6C, 0x69, 0x63, 0x65]) (hex [0x39, 0x39, 0x39, 0x39, 0x39])) ∧ (encode
    Config.ref (.remoteUnlock (hex [0x69, 0x64, 0x31]) (hex [0x61, 0x6C, 0x69, 0x63, 0x65]) (hex [0x39, 0x39,
    0x39, 0x39, 0x39]))).isSome = true := by decide +kernel

theorem witness_DecodeInvertsEncode_remote_lock : Config.ref.wf ∧ Instr.wf Config.ref (.remoteLock (hex [0x63,
    0x37]) (hex [0x62, 0x6F, 0x62])) ∧ (encode Config.ref (.remoteLock (hex [0x63, 0x37]) (hex [0x62, 0x6F,
    0x62]))).isSome = true := by decide +kernel

theorem witness_DecodeInvertsEncode_invalid_unlock : Config.ref.wf ∧ Instr.wf Config.ref (.invalidUnlock [hex
    [0x69, 0x64, 0x31], hex [0x61, 0x6C, 0x69, 0x63, 0x65]]) ∧ (encode Config.ref (.invalidUnlock [hex [0x69,
    0x64, 0x31], hex [0x61, 0x6C, 0x69, 0x63, 0x65]])).isSome = true := by decide +kernel

theorem witness_DecodeInvertsEncode_invalid_lock : Config.ref.wf ∧ Instr.wf Config.ref (.invalidLock [hex
    [0x63, 0x37]]) ∧ (encode Config.ref (.invalidLock [hex [0x63, 0x37]])).isSome = true := by decide +kernel

theorem witness_DecodeInvertsEncode_unrecognized : Config.ref.wf ∧ Instr.wf Config.ref (.unrecognized []) ∧
    (encode Config.ref (.unrecognized [])).isSome = true := by decide +kernel

end Sys2Proof.Tests
end

section
/-! PROOF. The scope of a step (spec 00_scope R5): it answers a next state whenever it runs an instruction, and the
bus-structured command form is the only request for which it runs none. -/

namespace Sys2Proof.Machine

/-- No arm of `exec` faults or refuses (R186): whatever the instruction and the state, it answers a next state. -/
theorem exec_eq_next (i : Instr) (s : State) : ∃ t, exec i s = .next t := by
  cases i <;> exact ⟨_, rfl⟩

/-- A step without a bus-form command at the head of the requests runs an instruction: the one asked for, or LOOP_STEP
when nothing is asked (R214). -/
theorem step_eq_exec_of_not_busCommand {s : State} (h : ¬ ∃ m rest, s.requests = .busCommand m :: rest) :
    ∃ i t, step s = exec i t := by
  cases hr : s.requests with
  | nil => exact ⟨_, _, step_unasked hr⟩
  | cons r rest =>
    cases r with
    | call i ok => exact ⟨_, _, step_call hr⟩
    | busCommand m => exact absurd ⟨m, rest, hr⟩ h

/-- Settles O47: a bus-form command is refused by name; every other step runs an instruction, which answers a next
state. -/
theorem stepRefusesOnlyTheBusForm : Obligations.StepRefusesOnlyTheBusForm := by
  intro s
  constructor
  · rintro ⟨m, rest, h⟩
    exact step_busCommand h
  · intro h
    obtain ⟨i, t, hstep⟩ := step_eq_exec_of_not_busCommand h
    rw [hstep]
    exact exec_eq_next i t

end Sys2Proof.Machine
end

section
/-! PROOF. The pure operations (spec 10_state R15, 60_exceptions R207): each writes the model's record of its returned
value and nothing else. -/

namespace Sys2Proof.Machine

/-- Running a pure operation writes its value to `result`. -/
theorem exec_of_isPure {i : Instr} (h : isPure i = true) (s : State) :
    ∃ v, exec i s = .next { s with result := some v } := by
  cases i <;> cases h <;> exact ⟨_, rfl⟩

/-- A pure operation does not read the value an earlier operation returned. -/
theorem exec_of_isPure_ignores_result {i : Instr} (h : isPure i = true) (s : State) (r : Option Value) :
    exec i { s with result := r } = exec i s := by
  cases i <;> cases h <;> rfl

/-- A step whose request is a pure operation only takes the request and records the value. -/
theorem step_of_isPure {s : State} {i : Instr} {ok : hostMay i = true} {rest : List Request}
    (hr : s.requests = .call i ok :: rest) (h : isPure i = true) :
    ∃ v, step s = .next { s with requests := rest, result := some v } := by
  obtain ⟨v, hv⟩ := exec_of_isPure h { s with requests := rest }
  exact ⟨v, (step_call hr).trans hv⟩

/-- Settles O53: a pure operation writes `result` alone, twice the same; `UP_RECEIVE` hands its condition to its caller;
and a request is LOOP_STEP, RESET or a pure operation. -/
theorem pureOperationsTouchNoState : Obligations.PureOperationsTouchNoState := by
  refine ⟨fun i s hi => ?_, fun B s => ?_, fun s t hst => ?_⟩
  · obtain ⟨v, hv⟩ := exec_of_isPure hi s
    exact ⟨v, hv, (exec_of_isPure_ignores_result hi s _).trans hv⟩
  · refine ⟨upReceive s.cfg B, ?_⟩
    rw [← upReceiveRaises_eq]
    rfl
  · cases hr : s.requests with
    | nil => exact .inl rfl
    | cons r rest =>
      cases r with
      | call i ok =>
        obtain hp | ⟨now, rfl⟩ | rfl := hostMay_cases ok
        · obtain ⟨v, hv⟩ := step_of_isPure hr hp
          cases hv.symm.trans hst
          exact .inr (.inr (.inr rfl))
        · exact .inr (.inl ⟨now, ok, rest, rfl⟩)
        · exact .inr (.inr (.inl ⟨ok, rest, rfl⟩))
      | busCommand m => cases (step_busCommand hr).symm.trans hst

end Sys2Proof.Machine
end

section
/-! PROOF. The invariant of a step boundary (spec 10_state R26, with the record rules R24 and 44_exchange_fsm R146): it
holds at reset, and every transition that a step can run keeps it. -/

namespace Sys2Proof.Machine

/-- The invariant speaks of the exchange, hold and command records only. -/
theorem State.Inv.of_sameRecords {s t : State} (h : s.Inv)
    (ht : t = { s with
      seq := t.seq, nextPoll := t.nextPoll, hbLast := t.hbLast, cfg := t.cfg, clock := t.clock
      sensorAnswers := t.sensorAnswers, pollAnswers := t.pollAnswers, sendAnswers := t.sendAnswers
      requests := t.requests, calls := t.calls, result := t.result }) : t.Inv := by
  rw [ht]
  exact ⟨h.rest, h.grantHold, h.commandHold, h.idleRecord, h.openOutcome, h.commandRecord, h.holdRecord⟩

theorem OnlySends.inv {s t : State} (hs : OnlySends s t) (h : s.Inv) : t.Inv := by
  obtain ⟨q, a, c, rfl⟩ := hs
  exact h.of_sameRecords rfl

theorem OnlySends.holdActive {s t : State} (hs : OnlySends s t) : t.holdActive = s.holdActive := by
  obtain ⟨q, a, c, rfl⟩ := hs
  rfl

theorem OnlySends.holdCause {s t : State} (hs : OnlySends s t) : t.holdCause = s.holdCause := by
  obtain ⟨q, a, c, rfl⟩ := hs
  rfl

theorem inv_resetWith (c : Config) : (State.resetWith c).Inv where
  rest := .inl rfl
  grantHold := by simp [State.grantHoldExact, State.resetWith]
  commandHold := by simp [State.commandHoldExact, State.resetWith]
  idleRecord := by simp [State.resetWith]
  openOutcome := by simp [State.openOutcome, State.resetWith]
  commandRecord := by simp [State.commandRecord, State.resetWith]
  holdRecord := by simp [State.resetWith]

/-- Settles O49: the reset state is idle, with no hold and no command, and carries the given straps. -/
theorem resetStateMeetsInvariant : Obligations.ResetStateMeetsInvariant := fun c => ⟨inv_resetWith c, rfl⟩

/-! ### What the invariant says where no hold runs, and under each kind of hold -/

/-- Without a hold the exchange is not granted (R26 (b)). -/
theorem State.Inv.not_granted {s : State} (h : s.Inv) (hh : s.holdActive = false) : s.xstate ≠ .granted := by
  intro hx
  obtain ⟨ha, -⟩ := h.grantHold.mp hx
  simp [hh] at ha

/-- Without an unlock hold no command is recorded (R26 (c)). -/
theorem State.Inv.no_command {s : State} (h : s.Inv) (hh : s.holdActive = false ∨ s.holdCause = .grant) :
    s.cmdValid = false := by
  rw [← Bool.not_eq_true, h.commandHold.1]
  rintro ⟨ha, hu⟩
  simp [ha, hu] at hh

/-! ### Each transition keeps the invariant -/

theorem inv_openExchange {s : State} (now : Nat) (q : BitVec 16) (h : s.Inv) (hh : s.holdActive = false) :
    (openExchange now q s).Inv where
  rest := by simp [State.restState]
  grantHold := by simp [State.grantHoldExact, hh]
  commandHold := h.commandHold
  idleRecord := by simp
  openOutcome := by simp [State.openOutcome]
  commandRecord := h.commandRecord
  holdRecord := h.holdRecord

/-- Granting opens a grant hold together with the state `Granted` (R142). -/
theorem inv_grantHold {s : State} (deadline : Nat) (h : s.Inv) (hh : s.holdActive = false) :
    (startHold .grant deadline (resolve .granted .granted s)).Inv where
  rest := by simp [State.restState]
  grantHold := by simp [State.grantHoldExact]
  commandHold := by simp [State.commandHoldExact, h.no_command (.inl hh)]
  idleRecord := by simp
  openOutcome := by simp [State.openOutcome]
  commandRecord := h.commandRecord
  holdRecord := by simp

/-- An unlock opens an unlock hold together with its command record, and leaves the exchange alone (R167). -/
theorem inv_unlockHold {s : State} {cid ini : Bytes} {d : Nat} (deadline : Nat) (h : s.Inv)
    (hh : s.holdActive = false) (hcid : cid.length ≤ 255) (hini : ini.length ≤ 255) (hlo : 1000 ≤ d)
    (hhi : d ≤ 30000) : (startHold .unlock deadline (setCommand .unlock cid ini d s)).Inv where
  rest := h.rest
  grantHold := by simp [State.grantHoldExact, h.not_granted hh]
  commandHold := by simp [State.commandHoldExact, hlo, hhi]
  idleRecord := h.idleRecord
  openOutcome := h.openOutcome
  commandRecord := by simp [State.commandRecord, hcid, hini]
  holdRecord := by simp

theorem inv_xClose {s : State} (h : s.Inv) (hh : s.holdActive = false) : (xClose s).Inv where
  rest := by simp [State.restState]
  grantHold := by simp [State.grantHoldExact, hh]
  commandHold := h.commandHold
  idleRecord := by simp
  openOutcome := by simp [State.openOutcome]
  commandRecord := h.commandRecord
  holdRecord := h.holdRecord

theorem inv_cmdClear {s : State} (h : s.Inv) (hh : s.holdActive = false) : (cmdClear s).Inv where
  rest := h.rest
  grantHold := h.grantHold
  commandHold := by simp [State.commandHoldExact, hh]
  idleRecord := h.idleRecord
  openOutcome := h.openOutcome
  commandRecord := by simp [State.commandRecord]
  holdRecord := h.holdRecord

/-- A grant hold ends together with its exchange (R146). -/
theorem inv_endGrantHold {s : State} (h : s.Inv) (hc : s.holdCause = .grant) : (endHold (xClose s)).Inv where
  rest := by simp [State.restState]
  grantHold := by simp [State.grantHoldExact]
  commandHold := by simp [State.commandHoldExact, h.no_command (.inr hc)]
  idleRecord := by simp
  openOutcome := by simp [State.openOutcome]
  commandRecord := h.commandRecord
  holdRecord := by simp

/-- An unlock hold ends together with its command, and leaves the exchange alone (R146). -/
theorem inv_endUnlockHold {s : State} (h : s.Inv) (hc : s.holdCause = .unlock) : (endHold (cmdClear s)).Inv where
  rest := h.rest
  grantHold := by simp [State.grantHoldExact, h.grantHold, hc]
  commandHold := by simp [State.commandHoldExact]
  idleRecord := h.idleRecord
  openOutcome := h.openOutcome
  commandRecord := by simp [State.commandRecord]
  holdRecord := by simp

/-! ### The operations of the Exchange State Machine keep it -/

/-- `X_OPEN` opens the exchange after sending, or only sends (R138). -/
theorem xOpen_cases (now : Nat) (id : Bytes) (s : State) :
    OnlySends s (xOpen now id s) ∨ ∃ q t, OnlySends s t ∧ xOpen now id s = openExchange now q t := by
  have hs := onlySends_sendScan now id s
  unfold xOpen
  split
  · next heq =>
    rw [heq] at hs
    exact .inl hs
  · next heq =>
    rw [heq] at hs
    exact .inr ⟨_, _, hs, rfl⟩

/-- Denial closes the exchange: the outcome it writes first does not survive `X_CLOSE` (R143, R145). -/
theorem xDeny_eq (now : Nat) (s : State) : xDeny now s = xClose (report .denied s) := rfl

/-- A time-out closes the exchange, after raising its condition (R144, R145). -/
theorem xTimeout_eq (now : Nat) (s : State) :
    xTimeout now s = xClose (report .timedOut (raise (.exchangeTimeout s.xseq) s)) := rfl

theorem inv_heartbeat {s : State} (now : Nat) (h : s.Inv) : (heartbeat now s).Inv := by
  obtain heq | heq := heartbeat_cases now s <;> rw [heq]
  · exact h
  · exact ((onlySends_sendStatus now _ s).inv h).of_sameRecords rfl

theorem inv_xOpen {s : State} (now : Nat) (id : Bytes) (h : s.Inv) (hh : s.holdActive = false) :
    (xOpen now id s).Inv := by
  obtain hs | ⟨q, t, hs, heq⟩ := xOpen_cases now id s
  · exact hs.inv h
  · rw [heq]
    exact inv_openExchange now q (hs.inv h) (hs.holdActive.trans hh)

theorem inv_xDeny {s : State} (now : Nat) (h : s.Inv) (hh : s.holdActive = false) : (xDeny now s).Inv := by
  rw [xDeny_eq]
  exact inv_xClose ((onlySends_report _ s).inv h) hh

theorem inv_xTimeout {s : State} (now : Nat) (h : s.Inv) (hh : s.holdActive = false) : (xTimeout now s).Inv := by
  rw [xTimeout_eq]
  exact inv_xClose (((onlySends_raise _ s).trans (onlySends_report _ _)).inv h) hh

theorem inv_xGrant {s : State} (now : Nat) (h : s.Inv) (hh : s.holdActive = false) : (xGrant now s).Inv := by
  obtain ⟨t, hs, heq⟩ := xGrant_eq now s
  rw [heq]
  exact inv_grantHold _ (hs.inv h) (hs.holdActive.trans hh)

theorem inv_holdFinish {s : State} (now : Nat) (h : s.Inv) : (holdFinish now s).Inv := by
  obtain ⟨t, hs, heq⟩ := holdFinish_eq now s
  rw [heq]
  cases hc : s.holdCause with
  | grant => exact inv_endGrantHold (hs.inv h) (hs.holdCause.trans hc)
  | unlock => exact inv_endUnlockHold (hs.inv h) (hs.holdCause.trans hc)

/-- `RX_PROCESS` runs without a hold only (R136): then each row it dispatches keeps the invariant. -/
theorem inv_rxProcess {s : State} (now : Nat) (B : Bytes) (h : s.Inv) (hh : s.holdActive = false) :
    (rxProcess now B s).Inv := by
  obtain ⟨d, heq⟩ | ⟨-, heq⟩ | ⟨-, heq⟩ | ⟨cid, ini, d, hcid, hini, hlo, hhi, heq⟩ | ⟨cid, ini, heq⟩ |
    ⟨cid, heq⟩ := rxProcess_cases now B s <;> rw [heq]
  · exact (onlySends_raise d s).inv h
  · exact inv_xGrant now h hh
  · exact inv_xDeny now h hh
  · exact (inv_unlockHold (now + d) h hh hcid hini hlo hhi).of_sameRecords rfl
  · obtain ⟨t, hs, heq⟩ := remoteLock_eq now cid ini s
    rw [heq]
    exact inv_cmdClear (hs.inv h) (hs.holdActive.trans hh)
  · exact (onlySends_invalidUnlock now cid s).inv h

/-- Every branch of `LOOP_STEP` (R136) keeps the invariant. -/
theorem inv_loopStep {s : State} (now : Nat) (h : s.Inv) : (loopStep now s).Inv := by
  have hclock : (sampleClock now s).Inv := h.of_sameRecords rfl
  obtain ⟨-, -, heq⟩ | ⟨-, -, heq⟩ | ⟨hh, -, -, heq⟩ | ⟨-, -, -, -, heq⟩ | ⟨-, -, -, -, -, heq⟩ |
    ⟨B, hh, -, -, -, -, heq⟩ | ⟨id, hh, -, -, heq⟩ | ⟨-, -, -, -, heq⟩ | ⟨B, t, hh, -, -, -, ht, heq⟩ :=
    loopStep_cases now s <;> rw [heq]
  · exact hclock
  · exact inv_holdFinish now hclock
  · exact inv_xTimeout now hclock hh
  · exact hclock
  · exact h.of_sameRecords rfl
  · exact inv_rxProcess now B (h.of_sameRecords rfl) hh
  · exact inv_xOpen now id (h.of_sameRecords rfl) hh
  · exact inv_heartbeat now (h.of_sameRecords rfl)
  · have hrx : t.Inv := ht ▸ inv_rxProcess now B (h.of_sameRecords rfl) hh
    split
    · exact hrx
    · exact inv_heartbeat now hrx

/-- Settles O50: a step runs one loop iteration, RESET or a pure operation, and each keeps the invariant. -/
theorem stepKeepsInvariant : Obligations.StepKeepsInvariant := by
  intro s t h hst
  obtain ⟨now, u, heq, hu⟩ | ⟨u, heq, hu⟩ | ⟨i, u, hp, heq, hu⟩ | heq := step_cases s
  · have hinv : u.Inv := h.of_sameRecords (hu.trans (by rw [hu]))
    cases heq.symm.trans hst
    exact inv_loopStep now hinv
  · cases heq.symm.trans hst
    exact (inv_resetWith u.cfg).of_sameRecords rfl
  · obtain ⟨v, hv⟩ := exec_of_isPure hp u
    cases hv.symm.trans (heq.symm.trans hst)
    rw [hu]
    exact h.of_sameRecords rfl
  · cases heq.symm.trans hst

end Sys2Proof.Machine
end

section
/-! PROOF. Which records an instruction writes (spec 10_state R32): each operation writes within a footprint, and the
footprint of an instruction is what the tables of R32 list for it. -/

namespace Sys2Proof.Machine

/-- The records an operation may write. -/
structure Footprint where
  seq : Bool := false
  exchange : Bool := false
  hold : Bool := false
  command : Bool := false
  heartbeat : Bool := false

/-- What the tables of R32 list for an instruction. -/
def footprint (i : Instr) : Footprint where
  seq := writesSeq i
  exchange := writesExchange i
  hold := writesHold i
  command := writesCommand i
  heartbeat := writesHeartbeat i

/-- Every record outside the footprint is the same in `t` as in `s`. -/
structure WritesWithin (w : Footprint) (s t : State) : Prop where
  seq : w.seq = false → t.seq = s.seq
  exchange : w.exchange = false → t.xstate = s.xstate ∧ t.xseq = s.xseq ∧ t.xdeadline = s.xdeadline ∧
    t.xoutcome = s.xoutcome ∧ t.nextPoll = s.nextPoll
  hold : w.hold = false → t.holdActive = s.holdActive ∧ t.holdCause = s.holdCause ∧ t.holdDeadline = s.holdDeadline
  command : w.command = false → t.cmdValid = s.cmdValid ∧ t.cmdKind = s.cmdKind ∧ t.cmdId = s.cmdId ∧
    t.cmdInitiator = s.cmdInitiator ∧ t.cmdDuration = s.cmdDuration
  heartbeat : w.heartbeat = false → t.hbLast = s.hbLast

/-! ### The footprint of each operation -/

theorem writesWithin_returnValue (w : Footprint) (v : Value) (s : State) : WritesWithin w s (returnValue v s) := by
  constructor <;> simp

theorem writesWithin_raise (w : Footprint) (d : Diag) (s : State) : WritesWithin w s (raise d s) := by
  constructor <;> simp

theorem OnlySends.writesWithin {s t : State} (h : OnlySends s t) : WritesWithin { seq := true } s t := by
  obtain ⟨q, a, c, rfl⟩ := h
  constructor <;> simp

theorem writesWithin_execSendScan (now : Nat) (id : Bytes) (v : Value) (s : State) :
    WritesWithin { seq := true } s (returnValue v (sendScan now id s).2) := by
  obtain ⟨q, a, c, heq⟩ := onlySends_sendScan now id s
  rw [heq]
  constructor <;> simp

theorem writesWithin_heartbeat (now : Nat) (s : State) :
    WritesWithin { seq := true, heartbeat := true } s (heartbeat now s) := by
  obtain heq | heq := heartbeat_cases now s <;> rw [heq]
  · constructor <;> simp
  · obtain ⟨q, a, c, hs⟩ := onlySends_sendStatus now s.cfg.heartbeatText s
    rw [hs]
    constructor <;> simp

theorem writesWithin_xOpen (now : Nat) (id : Bytes) (s : State) :
    WritesWithin { seq := true, exchange := true } s (xOpen now id s) := by
  obtain ⟨q, a, c, heq⟩ | ⟨q, t, ⟨q', a, c, rfl⟩, heq⟩ := xOpen_cases now id s
  · rw [heq]
    constructor <;> simp
  · rw [heq]
    constructor <;> simp

theorem writesWithin_xGrant (now : Nat) (s : State) :
    WritesWithin { seq := true, exchange := true, hold := true } s (xGrant now s) := by
  obtain ⟨t, ⟨q, a, c, rfl⟩, heq⟩ := xGrant_eq now s
  rw [heq]
  constructor <;> simp

theorem writesWithin_xDeny (now : Nat) (s : State) : WritesWithin { exchange := true } s (xDeny now s) := by
  rw [xDeny_eq]
  constructor <;> simp

theorem writesWithin_xTimeout (now : Nat) (s : State) : WritesWithin { exchange := true } s (xTimeout now s) := by
  rw [xTimeout_eq]
  constructor <;> simp

theorem writesWithin_xClose (s : State) : WritesWithin { exchange := true } s (xClose s) := by
  constructor <;> simp

theorem writesWithin_onToken_grant (now : Nat) (s : State) :
    WritesWithin { seq := true, exchange := true, hold := true } s (onToken .grant now s) := by
  unfold onToken
  split
  · exact writesWithin_xGrant now s
  · exact writesWithin_raise _ _ s

theorem writesWithin_onToken_deny (now : Nat) (s : State) :
    WritesWithin { exchange := true } s (onToken .deny now s) := by
  unfold onToken
  split
  · exact writesWithin_xDeny now s
  · exact writesWithin_raise _ _ s

theorem writesWithin_remoteUnlock (now : Nat) (cid ini : Bytes) (d : Nat) (s : State) :
    WritesWithin { hold := true, command := true } s (remoteUnlock now cid ini d s) := by
  unfold remoteUnlock
  constructor <;> simp

theorem writesWithin_remoteLock (now : Nat) (cid ini : Bytes) (s : State) :
    WritesWithin { seq := true, command := true } s (remoteLock now cid ini s) := by
  obtain ⟨t, ⟨q, a, c, rfl⟩, heq⟩ := remoteLock_eq now cid ini s
  rw [heq]
  constructor <;> simp

theorem writesWithin_cmdClear (s : State) : WritesWithin { command := true } s (cmdClear s) := by
  constructor <;> simp

theorem writesWithin_holdFinish (now : Nat) (s : State) :
    WritesWithin { seq := true, exchange := true, hold := true, command := true } s (holdFinish now s) := by
  obtain ⟨t, ⟨q, a, c, rfl⟩, heq⟩ := holdFinish_eq now s
  rw [heq]
  cases s.holdCause with
  | grant => constructor <;> simp
  | unlock => constructor <;> simp

/-- `RX_PROCESS` does not write `HB_LAST`: no row it dispatches does. -/
theorem writesWithin_rxProcess (now : Nat) (B : Bytes) (s : State) :
    WritesWithin { seq := true, exchange := true, hold := true, command := true } s (rxProcess now B s) where
  seq := nofun
  exchange := nofun
  hold := nofun
  command := nofun
  heartbeat _ := by
    obtain ⟨d, heq⟩ | ⟨-, heq⟩ | ⟨-, heq⟩ | ⟨cid, ini, d, -, -, -, -, heq⟩ | ⟨cid, ini, heq⟩ | ⟨cid, heq⟩ :=
      rxProcess_cases now B s <;> rw [heq]
    · exact raise_hbLast s d
    · exact (writesWithin_xGrant now s).heartbeat rfl
    · exact (writesWithin_xDeny now s).heartbeat rfl
    · exact (writesWithin_remoteUnlock now cid ini d s).heartbeat rfl
    · exact (writesWithin_remoteLock now cid ini s).heartbeat rfl
    · exact (onlySends_invalidUnlock now cid s).writesWithin.heartbeat rfl

/-- LOOP_STEP and RESET are listed for every record (R32), so no record lies outside their footprint. -/
theorem writesWithin_all (s t : State) :
    WritesWithin { seq := true, exchange := true, hold := true, command := true, heartbeat := true } s t :=
  ⟨nofun, nofun, nofun, nofun, nofun⟩

/-! ### Every instruction -/

/-- Every instruction writes within the footprint the tables of R32 give it. -/
theorem exec_writesWithin (i : Instr) (s : State) : ∃ t, exec i s = .next t ∧ WritesWithin (footprint i) s t := by
  by_cases hp : isPure i = true
  · obtain ⟨v, hv⟩ := exec_of_isPure hp s
    exact ⟨_, hv, writesWithin_returnValue _ v s⟩
  cases i with
  | scan hdr payload => exact ⟨_, rfl, (onlySends_sendScan _ payload s).writesWithin⟩
  | status hdr payload => exact ⟨_, rfl, (onlySends_sendStatus _ payload s).writesWithin⟩
  | ack hdr payload => exact ⟨_, rfl, (onlySends_txFrame _ _ payload s).writesWithin⟩
  | grant => exact ⟨_, rfl, writesWithin_onToken_grant _ s⟩
  | deny => exact ⟨_, rfl, writesWithin_onToken_deny _ s⟩
  | remoteUnlock cid ini dur => exact ⟨_, rfl, writesWithin_remoteUnlock _ cid ini _ s⟩
  | remoteLock cid ini => exact ⟨_, rfl, writesWithin_remoteLock _ cid ini s⟩
  | invalidUnlock fields => exact ⟨_, rfl, (onlySends_invalidUnlock _ _ s).writesWithin⟩
  | invalidLock fields => exact ⟨_, rfl, writesWithin_raise _ _ s⟩
  | unrecognized payload => exact ⟨_, rfl, writesWithin_raise _ _ s⟩
  | txFrame now t payload => exact ⟨_, rfl, (onlySends_txFrame now t payload s).writesWithin⟩
  | sendScan now id => exact ⟨_, rfl, writesWithin_execSendScan now id _ s⟩
  | sendStatus now text => exact ⟨_, rfl, (onlySends_sendStatus now text s).writesWithin⟩
  | sendAck now cid flag text => exact ⟨_, rfl, (onlySends_sendAck now cid flag text s).writesWithin⟩
  | heartbeat now => exact ⟨_, rfl, writesWithin_heartbeat now s⟩
  | loopStep now => exact ⟨_, rfl, writesWithin_all s _⟩
  | xOpen now id => exact ⟨_, rfl, writesWithin_xOpen now id s⟩
  | rxProcess now buf => exact ⟨_, rfl, writesWithin_rxProcess now buf s⟩
  | xGrant now => exact ⟨_, rfl, writesWithin_xGrant now s⟩
  | xDeny now => exact ⟨_, rfl, writesWithin_xDeny now s⟩
  | xTimeout now => exact ⟨_, rfl, writesWithin_xTimeout now s⟩
  | xClose => exact ⟨_, rfl, writesWithin_xClose s⟩
  | holdFinish now => exact ⟨_, rfl, writesWithin_holdFinish now s⟩
  | holdWait now => exact ⟨_, rfl, by constructor <;> simp [holdWait]⟩
  | cmdClear => exact ⟨_, rfl, writesWithin_cmdClear s⟩
  | reset => exact ⟨_, rfl, writesWithin_all s _⟩
  | _ => exact absurd rfl hp

/-- Settles O52: what the tables of R32 do not list for an instruction lies outside its footprint. -/
theorem onlyListedOperationsWrite : Obligations.OnlyListedOperationsWrite := by
  intro i s
  obtain ⟨t, ht, h⟩ := exec_writesWithin i s
  exact ⟨t, ht, h.seq, h.exchange, h.hold, h.command, h.heartbeat⟩

end Sys2Proof.Machine
end

section
/-! PROOF. `SEQ` counts the frames handed to the transport (spec 10_state R20, 43_uplink_sender R122), and the straps
never change (10_state R27): one relation that every operation but RESET satisfies. -/

namespace Sys2Proof.Machine

theorem framesOf_append (c d : List EnvCall) : framesOf (c ++ d) = framesOf c ++ framesOf d := by
  induction c with
  | nil => rfl
  | cons x c ih => cases x <;> simp [framesOf, ih]

/-- One `send` hands over one frame; the condition after a refused one is no frame (R123). -/
theorem framesOf_sendCalls (s : State) (F : Bytes) : framesOf (sendCalls s F) = [F] := by
  unfold sendCalls
  split <;> rfl

/-- `t` carries the straps of `s`, has made further calls, and has moved `SEQ` by the frames among them. -/
structure Advances (s t : State) : Prop where
  cfg : t.cfg = s.cfg
  counts : ∃ c, t.calls = s.calls ++ c ∧ t.seq = s.seq + BitVec.ofNat 16 (framesOf c).length

theorem Advances.trans {s t u : State} (h : Advances s t) (h' : Advances t u) : Advances s u := by
  obtain ⟨c, hcalls, hseq⟩ := h.counts
  obtain ⟨c', hcalls', hseq'⟩ := h'.counts
  refine ⟨h'.cfg.trans h.cfg, c ++ c', ?_, ?_⟩
  · rw [hcalls', hcalls, List.append_assoc]
  · rw [hseq', hseq, framesOf_append, List.length_append, BitVec.ofNat_add, BitVec.add_assoc]

/-- A change that touches neither the straps nor the calls nor `SEQ`. -/
theorem advances_of_eq {s t : State} (hcfg : t.cfg = s.cfg) (hcalls : t.calls = s.calls) (hseq : t.seq = s.seq) :
    Advances s t :=
  ⟨hcfg, [], by simp [hcalls], by simp [hseq, framesOf]⟩

/-- The same where such a change came first, as taking an answer or sampling the clock does. -/
theorem Advances.of_eq_start {s t u : State} (h : Advances t u) (hcfg : t.cfg = s.cfg) (hcalls : t.calls = s.calls)
    (hseq : t.seq = s.seq) : Advances s u :=
  (advances_of_eq hcfg hcalls hseq).trans h

theorem Advances.refl (s : State) : Advances s s := advances_of_eq rfl rfl rfl

/-! ### The calls -/

theorem advances_raise (d : Diag) (s : State) : Advances s (raise d s) := ⟨rfl, [.diag d], rfl, by simp [framesOf]⟩

theorem advances_act (a : Actuation) (s : State) : Advances s (act a s) := ⟨rfl, [.act a], rfl, by simp [framesOf]⟩

theorem advances_report (o : XOutcome) (s : State) : Advances s (report o s) :=
  ⟨rfl, [.report o], rfl, by simp [framesOf]⟩

theorem advances_afterSend (s : State) (F : Bytes) : Advances s (afterSend s F) :=
  ⟨rfl, sendCalls s F, rfl, by simp [framesOf_sendCalls]⟩

/-! ### The records -/

theorem advances_startHold (cause : HoldCause) (deadline : Nat) (s : State) : Advances s (startHold cause deadline s) :=
  advances_of_eq rfl rfl rfl

theorem advances_endHold (s : State) : Advances s (endHold s) := advances_of_eq rfl rfl rfl

theorem advances_setCommand (kind : CmdKind) (cid ini : Bytes) (d : Nat) (s : State) :
    Advances s (setCommand kind cid ini d s) :=
  advances_of_eq rfl rfl rfl

theorem advances_cmdClear (s : State) : Advances s (cmdClear s) := advances_of_eq rfl rfl rfl

theorem advances_openExchange (now : Nat) (q : BitVec 16) (s : State) : Advances s (openExchange now q s) :=
  advances_of_eq rfl rfl rfl

theorem advances_resolve (o : XOutcome) (x : XState) (s : State) : Advances s (resolve o x s) :=
  advances_of_eq rfl rfl rfl

theorem advances_xClose (s : State) : Advances s (xClose s) := advances_of_eq rfl rfl rfl

/-! ### The Uplink Sender -/

theorem advances_txFrame (now : Nat) (t : Nibble) (p : Bytes) (s : State) : Advances s (txFrame now t p s) := by
  obtain heq | ⟨F, -, heq⟩ := txFrame_cases now t p s <;> rw [heq]
  · exact .refl s
  · exact advances_afterSend s F

theorem advances_sendStatus (now : Nat) (text : Bytes) (s : State) : Advances s (sendStatus now text s) :=
  advances_txFrame now _ text s

theorem advances_sendAck (now : Nat) (cid : Bytes) (flag : Byte) (text : Bytes) (s : State) :
    Advances s (sendAck now cid flag text s) :=
  advances_txFrame now _ _ s

theorem advances_sendScan (now : Nat) (id : Bytes) (s : State) : Advances s (sendScan now id s).2 := by
  unfold sendScan
  split
  · exact advances_raise _ s
  · exact advances_txFrame now _ id s

theorem advances_heartbeat (now : Nat) (s : State) : Advances s (heartbeat now s) := by
  obtain heq | heq := heartbeat_cases now s <;> rw [heq]
  · exact .refl s
  · exact (advances_sendStatus now _ s).trans (advances_of_eq rfl rfl rfl)

/-! ### The dispatcher and the Exchange State Machine -/

theorem advances_invalidUnlock (now : Nat) (cid : Bytes) (s : State) : Advances s (invalidUnlock now cid s) :=
  (advances_raise _ s).trans (advances_sendAck now cid _ _ _)

theorem advances_remoteUnlock (now : Nat) (cid ini : Bytes) (d : Nat) (s : State) :
    Advances s (remoteUnlock now cid ini d s) :=
  ((advances_setCommand .unlock cid ini d s).trans (advances_act .openGate _)).trans
    (advances_startHold .unlock (now + d) _)

theorem advances_remoteLock (now : Nat) (cid ini : Bytes) (s : State) : Advances s (remoteLock now cid ini s) := by
  have hact := (advances_setCommand .lock cid ini 0 s).trans (advances_act .closeGate _)
  have hack := hact.trans (advances_sendAck now cid Config.ackOk s.cfg.ackTextLock _)
  exact (hack.trans (advances_sendStatus now Config.statusClosed _)).trans (advances_cmdClear _)

theorem advances_xOpen (now : Nat) (id : Bytes) (s : State) : Advances s (xOpen now id s) := by
  have hscan := advances_sendScan now id s
  unfold xOpen
  split
  · next heq =>
    rw [heq] at hscan
    exact hscan
  · next heq =>
    rw [heq] at hscan
    exact hscan.trans (advances_openExchange now _ _)

theorem advances_xGrant (now : Nat) (s : State) : Advances s (xGrant now s) := by
  have hrep := (advances_resolve .granted .granted s).trans (advances_report .granted _)
  have hstatus := (hrep.trans (advances_act .openGate _)).trans (advances_sendStatus now Config.statusOpen _)
  exact hstatus.trans (advances_startHold .grant _ _)

theorem advances_xDeny (now : Nat) (s : State) : Advances s (xDeny now s) := by
  rw [xDeny_eq]
  exact (advances_report .denied s).trans (advances_xClose _)

theorem advances_xTimeout (now : Nat) (s : State) : Advances s (xTimeout now s) := by
  rw [xTimeout_eq]
  exact ((advances_raise _ s).trans (advances_report .timedOut _)).trans (advances_xClose _)

theorem advances_onToken (d : Decision) (now : Nat) (s : State) : Advances s (onToken d now s) := by
  unfold onToken
  split
  · cases d with
    | grant => exact advances_xGrant now s
    | deny => exact advances_xDeny now s
  · exact advances_raise _ s

theorem advances_holdFinish (now : Nat) (s : State) : Advances s (holdFinish now s) := by
  have hact := advances_act .closeGate s
  unfold holdFinish
  cases hc : s.holdCause with
  | grant =>
    simp only [act_holdCause, hc]
    have hstatus := hact.trans (advances_sendStatus now Config.statusClosed _)
    exact (hstatus.trans (advances_xClose _)).trans (advances_endHold _)
  | unlock =>
    simp only [act_holdCause, hc]
    have hack := hact.trans (advances_sendAck now s.cmdId Config.ackOk s.cfg.ackTextUnlock _)
    have hstatus := hack.trans (advances_sendStatus now Config.statusClosed _)
    exact (hstatus.trans (advances_cmdClear _)).trans (advances_endHold _)

theorem advances_rxProcess (now : Nat) (B : Bytes) (s : State) : Advances s (rxProcess now B s) := by
  obtain ⟨d, heq⟩ | ⟨-, heq⟩ | ⟨-, heq⟩ | ⟨cid, ini, d, -, -, -, -, heq⟩ | ⟨cid, ini, heq⟩ | ⟨cid, heq⟩ :=
    rxProcess_cases now B s <;> rw [heq]
  · exact advances_raise d s
  · exact advances_xGrant now s
  · exact advances_xDeny now s
  · exact advances_remoteUnlock now cid ini d s
  · exact advances_remoteLock now cid ini s
  · exact advances_invalidUnlock now cid s

/-- Each branch of `LOOP_STEP` (R136) samples the clock and takes answers, then runs one operation or two. -/
theorem advances_loopStep (now : Nat) (s : State) : Advances s (loopStep now s) := by
  have hclock : Advances s (sampleClock now s) := advances_of_eq rfl rfl rfl
  obtain ⟨-, -, heq⟩ | ⟨-, -, heq⟩ | ⟨-, -, -, heq⟩ | ⟨-, -, -, -, heq⟩ | ⟨-, -, -, -, -, heq⟩ |
    ⟨B, -, -, -, -, -, heq⟩ | ⟨id, -, -, -, heq⟩ | ⟨-, -, -, -, heq⟩ | ⟨B, t, -, -, -, -, ht, heq⟩ :=
    loopStep_cases now s <;> rw [heq]
  · exact hclock
  · exact hclock.trans (advances_holdFinish now _)
  · exact hclock.trans (advances_xTimeout now _)
  · exact hclock
  · exact advances_of_eq rfl rfl rfl
  · exact (advances_rxProcess now B _).of_eq_start rfl rfl rfl
  · exact (advances_xOpen now id _).of_eq_start rfl rfl rfl
  · exact (advances_heartbeat now _).of_eq_start rfl rfl rfl
  · have hrx : Advances s t := by
      rw [ht]
      exact (advances_rxProcess now B _).of_eq_start rfl rfl rfl
    split
    · exact hrx
    · exact hrx.trans (advances_heartbeat now t)

/-! ### Every instruction but RESET -/

theorem exec_advances {i : Instr} (h : i ≠ .reset) (s : State) : ∃ t, exec i s = .next t ∧ Advances s t := by
  by_cases hp : isPure i = true
  · obtain ⟨v, hv⟩ := exec_of_isPure hp s
    exact ⟨_, hv, advances_of_eq rfl rfl rfl⟩
  cases i with
  | scan hdr payload => exact ⟨_, rfl, advances_sendScan _ payload s⟩
  | status hdr payload => exact ⟨_, rfl, advances_sendStatus _ payload s⟩
  | ack hdr payload => exact ⟨_, rfl, advances_txFrame _ _ payload s⟩
  | grant => exact ⟨_, rfl, advances_onToken .grant _ s⟩
  | deny => exact ⟨_, rfl, advances_onToken .deny _ s⟩
  | remoteUnlock cid ini dur => exact ⟨_, rfl, advances_remoteUnlock _ cid ini _ s⟩
  | remoteLock cid ini => exact ⟨_, rfl, advances_remoteLock _ cid ini s⟩
  | invalidUnlock fields => exact ⟨_, rfl, advances_invalidUnlock _ _ s⟩
  | invalidLock fields => exact ⟨_, rfl, advances_raise _ s⟩
  | unrecognized payload => exact ⟨_, rfl, advances_raise _ s⟩
  | txFrame now t payload => exact ⟨_, rfl, advances_txFrame now t payload s⟩
  | sendScan now id => exact ⟨_, rfl, (advances_sendScan now id s).trans (advances_of_eq rfl rfl rfl)⟩
  | sendStatus now text => exact ⟨_, rfl, advances_sendStatus now text s⟩
  | sendAck now cid flag text => exact ⟨_, rfl, advances_sendAck now cid flag text s⟩
  | heartbeat now => exact ⟨_, rfl, advances_heartbeat now s⟩
  | loopStep now => exact ⟨_, rfl, advances_loopStep now s⟩
  | xOpen now id => exact ⟨_, rfl, advances_xOpen now id s⟩
  | rxProcess now buf => exact ⟨_, rfl, advances_rxProcess now buf s⟩
  | xGrant now => exact ⟨_, rfl, advances_xGrant now s⟩
  | xDeny now => exact ⟨_, rfl, advances_xDeny now s⟩
  | xTimeout now => exact ⟨_, rfl, advances_xTimeout now s⟩
  | xClose => exact ⟨_, rfl, advances_xClose s⟩
  | holdFinish now => exact ⟨_, rfl, advances_holdFinish now s⟩
  | holdWait now => exact ⟨_, rfl, .refl s⟩
  | cmdClear => exact ⟨_, rfl, advances_cmdClear s⟩
  | reset => exact absurd rfl h
  | _ => exact absurd rfl hp

/-- Settles O51: RESET keeps the straps by its definition, and every other instruction advances the state. -/
theorem configurationNeverWritten : Obligations.ConfigurationNeverWritten := by
  intro i s
  by_cases h : i = .reset
  · subst h
    exact ⟨_, rfl, rfl⟩
  · obtain ⟨t, ht, hadv⟩ := exec_advances h s
    exact ⟨t, ht, hadv.cfg⟩

/-- Settles O54: the calls an instruction makes stand after those already made, and `SEQ` counts their frames. -/
theorem seqCountsFramesSent : Obligations.SeqCountsFramesSent := by
  intro i s h
  obtain ⟨t, ht, hadv⟩ := exec_advances h s
  obtain ⟨c, hcalls, hseq⟩ := hadv.counts
  refine ⟨t, ht, ?_⟩
  rw [newCalls, hcalls, List.drop_left, hseq]

end Sys2Proof.Machine
end

section
/-! PROOF. The buffer accessors (spec 20_memory R41, R42; byte order 00_scope R11): what a read returns inside and
outside the bytes a write stored, whatever their number. -/

namespace Sys2Proof.Machine

/-- The byte stored at a write's own offset is the first of those it was given (R41). -/
theorem memRead1_memWriteBytes_first {B v : Bytes} {o : Nat} (ho : o ≤ B.length) (hv : 0 < v.length) :
    memRead1 (memWriteBytes B o v) o = memRead1 v 0 := by
  rw [memWriteBytes_read B o v ho, if_neg (by omega), if_pos (by omega), Nat.sub_self]

/-- The frame of a write: it leaves every byte it does not store (R41). -/
theorem memRead1_memWriteBytes_outside {B v : Bytes} {o a : Nat} (ho : o ≤ B.length)
    (ha : a < o ∨ o + v.length ≤ a) : memRead1 (memWriteBytes B o v) a = memRead1 B a := by
  rw [memWriteBytes_read B o v ho]
  obtain hbefore | hafter := ha
  · rw [if_pos hbefore]
  · rw [if_neg (by omega), if_neg (by omega)]

/-- Before a write's offset stand `o` bytes, so the stored bytes are read back as those of an appended field. -/
theorem memRead2_memWrite2 {B : Bytes} {o : Nat} (ho : o ≤ B.length) (v : BitVec 16) :
    memRead2 (memWrite2 B o v) o = v := by
  have hread := memRead2_le16 (B.take o) (B.drop (o + 2)) v
  rwa [List.length_take_of_le ho] at hread

theorem memRead4_memWrite4 {B : Bytes} {o : Nat} (ho : o ≤ B.length) (v : BitVec 32) :
    memRead4 (memWrite4 B o v) o = v := by
  have hread := memRead4_le32 (B.take o) (B.drop (o + 4)) v
  rwa [List.length_take_of_le ho] at hread

/-- Settles O11: the first stored byte of each width is the least significant one, the joined bytes are the value, and
the frame is that of `memWriteBytes`. -/
theorem bufferReadAfterWrite : Obligations.BufferReadAfterWrite := by
  intro B o v1 v2 v4 ho
  refine ⟨memRead1_memWriteBytes_first ho Nat.one_pos, memRead2_memWrite2 ho v2, memRead4_memWrite4 ho v4,
    memRead1_memWriteBytes_first ho Nat.two_pos, memRead1_memWriteBytes_first ho (Nat.succ_pos 3),
    fun a => ⟨fun hne => ?_, fun ha => ?_, fun ha => ?_⟩⟩
  · exact memRead1_memWriteBytes_outside ho (Nat.lt_or_gt_of_ne hne)
  · exact memRead1_memWriteBytes_outside ho ha
  · exact memRead1_memWriteBytes_outside ho ha

end Sys2Proof.Machine
end

section
/-! PROOF. Decoding inverts encoding (spec 30_encoding R60, R61, R68, R85): the obfuscation stage undoes itself, so each
format's receive pipeline delivers what its encoder was given, and the row of a payload is read back from its text. -/

namespace Sys2Proof.Machine

/-! ### The two formats -/

/-- The transform undoes itself, under the empty key too (R117). -/
theorem xorTransform_xorTransform (P K : Bytes) : xorTransform (xorTransform P K) K = P := by
  cases K with
  | nil => rfl
  | cons k rest => exact xorFrom_xorFrom (k :: rest) 0 P

theorem stageOf_stageOf (c : Config) (P : Bytes) : stageOf c (stageOf c P) = P :=
  xorTransform_xorTransform P c.key

theorem byte3_bytes_injective {t u : Byte3} (h : t.bytes = u.bytes) : t = u := by
  cases t
  cases u
  simpa [Byte3.bytes] using h

@[simp] theorem byte5_length (t : Byte5) : t.bytes.length = 5 := rfl

theorem byte5_bytes_injective {t u : Byte5} (h : t.bytes = u.bytes) : t = u := by
  cases t
  cases u
  simpa [Byte5.bytes] using h

/-- An encoded uplink frame is read as the row of a frame with the header and the payload it was built from. -/
theorem decode_encodeUp {c : Config} {p : Bytes} (t : Nibble) (h : UpHeader) (hpre : c.rxPrefix ≠ c.magic)
    (hp : fitsLengthByte p) :
    ∃ fr : UpFrame, fr.msgType = t ∧ headerOf fr = h ∧ fr.payload = p ∧
      decode c (encodeUp c t h p) = decodeUpRow c fr := by
  have hmagic : (encodeUp c t h p).take 3 ≠ c.rxPrefix.bytes := fun e => hpre (byte3_bytes_injective e).symm
  have hrecv : upReceive c (encodeUp c t h p) = _ :=
    upReceiveWith_built (stageOf c) c t h.version h.flags h.deviceType h.sequence h.timestamp (stageOf c p)
      ((stageOf_length c p).trans_le hp)
  rw [decode, if_neg hmagic, decodeUpFrame, hrecv]
  exact ⟨_, rfl, rfl, stageOf_stageOf c p, rfl⟩

/-- An encoded downlink frame, with its trailer or without, is read as the row of the payload it was built from. -/
theorem decode_encodeDn {c : Config} {Q : Bytes} (hQ : fitsLengthByte Q) :
    decode c (encodeDn c Q) = .instr (decodeText c Q) := by
  have hW : (stageOf c Q).length ≤ 255 := (stageOf_length c Q).trans_le hQ
  have hframe : encodeDn c Q =
      if c.dnCrc then crcAppend (dnBody c 0 0 (stageOf c Q)) else dnBody c 0 0 (stageOf c Q) := rfl
  have hprefix : (encodeDn c Q).take 3 = c.rxPrefix.bytes := by
    rw [hframe]
    split <;> rfl
  have hrecv : dnReceive c (encodeDn c Q) = .payload Q := by
    rw [hframe]
    split
    · next hcrc => rw [dnReceive_checked c 0 0 _ hW hcrc, stageOf_stageOf]
    · next hcrc => rw [dnReceive_plain c 0 0 _ hW (Bool.eq_false_of_not_eq_true hcrc), stageOf_stageOf]
  rw [decode, if_pos hprefix, decodeDnFrame, hrecv]

/-! ### The row of an uplink frame -/

theorem decodeUpRow_scan {c : Config} {fr : UpFrame} (ht : fr.msgType = Config.mtScan) :
    decodeUpRow c fr = .instr (.scan (headerOf fr) fr.payload) := by
  rw [decodeUpRow, if_pos ht]

/-- An acknowledgment: not a SCAN by R7, and told from a STATUS by its text where the types coincide (log entry 7). -/
theorem decodeUpRow_ack {c : Config} {fr : UpFrame} (hack : c.mtAck ≠ Config.mtScan) (ht : fr.msgType = c.mtAck)
    (htext : c.mtAck = Config.mtStatus → isAckText fr.payload) :
    decodeUpRow c fr = .instr (.ack (headerOf fr) fr.payload) := by
  rw [decodeUpRow, if_neg (by rwa [ht]), if_pos ⟨ht, htext⟩]

theorem decodeUpRow_status {c : Config} {fr : UpFrame} (ht : fr.msgType = Config.mtStatus)
    (htext : ¬ (c.mtAck = Config.mtStatus ∧ isAckText fr.payload)) :
    decodeUpRow c fr = .instr (.status (headerOf fr) fr.payload) := by
  have hscan : fr.msgType ≠ Config.mtScan := by
    rw [ht]
    decide
  have hack : ¬ (fr.msgType = c.mtAck ∧ (c.mtAck = Config.mtStatus → isAckText fr.payload)) := by
    rintro ⟨hm, himp⟩
    have hsame : c.mtAck = Config.mtStatus := hm.symm.trans ht
    exact htext ⟨hsame, himp hsame⟩
  rw [decodeUpRow, if_neg hscan, if_neg hack, if_pos ht]

/-! ### The row of a downlink text -/

theorem decodeText_grant (c : Config) : decodeText c c.tokenGrant.bytes = .grant := by
  rw [decodeText, if_pos rfl]

theorem decodeText_deny {c : Config} (h : c.tokenDeny ≠ c.tokenGrant) : decodeText c c.tokenDeny.bytes = .deny := by
  rw [decodeText, if_neg fun e => h (byte5_bytes_injective e), if_pos rfl]

/-- A text that begins with a field longer than a token (R76) is no token, and splits into the fields it joins. -/
theorem commandText_reads (c : Config) {kind : Bytes} {fields : List Bytes} (hkind : 5 < kind.length)
    (hcolon : fieldOk kind) (hf : ∀ f ∈ fields, fieldOk f) :
    joinFields (kind :: fields) ≠ c.tokenGrant.bytes ∧ joinFields (kind :: fields) ≠ c.tokenDeny.bytes ∧
      split (joinFields (kind :: fields)) = kind :: fields := by
  have htoken (token : Byte5) : joinFields (kind :: fields) ≠ token.bytes := by
    intro h
    have hle := joinFields_length_le kind fields
    rw [h, byte5_length] at hle
    omega
  exact ⟨htoken _, htoken _, split_joinFields _ (List.cons_ne_nil _ _) (List.forall_mem_cons.mpr ⟨hcolon, hf⟩)⟩

theorem decodeText_remoteUnlock (c : Config) {cid ini dur : Bytes} (hf : ∀ f ∈ [cid, ini, dur], fieldOk f) :
    decodeText c (joinFields [Config.remoteUnlockText, cid, ini, dur]) = .remoteUnlock cid ini dur := by
  obtain ⟨hgrant, hdeny, hsplit⟩ :=
    commandText_reads c (kind := Config.remoteUnlockText) (by decide) (by decide) hf
  rw [decodeText, if_neg hgrant, if_neg hdeny, hsplit]
  rfl

theorem decodeText_invalidUnlock (c : Config) {fields : List Bytes} (hf : ∀ f ∈ fields, fieldOk f)
    (hcount : fields.length ≠ 3) :
    decodeText c (joinFields (Config.remoteUnlockText :: fields)) = .invalidUnlock fields := by
  obtain ⟨hgrant, hdeny, hsplit⟩ :=
    commandText_reads c (kind := Config.remoteUnlockText) (by decide) (by decide) hf
  simp only [decodeText, if_neg hgrant, if_neg hdeny, hsplit, if_true]
  split
  · exact absurd rfl hcount
  · rfl

theorem decodeText_remoteLock (c : Config) {cid ini : Bytes} (hf : ∀ f ∈ [cid, ini], fieldOk f) :
    decodeText c (joinFields [Config.remoteLockText, cid, ini]) = .remoteLock cid ini := by
  obtain ⟨hgrant, hdeny, hsplit⟩ :=
    commandText_reads c (kind := Config.remoteLockText) (by decide) (by decide) hf
  rw [decodeText, if_neg hgrant, if_neg hdeny, hsplit]
  rfl

theorem decodeText_invalidLock (c : Config) {fields : List Bytes} (hf : ∀ f ∈ fields, fieldOk f)
    (hcount : fields.length ≠ 2) :
    decodeText c (joinFields (Config.remoteLockText :: fields)) = .invalidLock fields := by
  obtain ⟨hgrant, hdeny, hsplit⟩ :=
    commandText_reads c (kind := Config.remoteLockText) (by decide) (by decide) hf
  have hkind : Config.remoteLockText ≠ Config.remoteUnlockText := by decide
  simp only [decodeText, if_neg hgrant, if_neg hdeny, hsplit, if_neg hkind, if_true]
  split
  · exact absurd rfl hcount
  · rfl

/-- Only a text whose first field names neither command is no command (R162). -/
theorem parseCmd_notACommand {Q : Bytes} (h : parseCmd Q = .notACommand) :
    (split Q).headD [] ≠ Config.remoteUnlockText ∧ (split Q).headD [] ≠ Config.remoteLockText := by
  unfold parseCmd at h
  simp only at h
  split at h
  · split at h <;> cases h
  · next hunlock =>
    split at h
    · split at h <;> cases h
    · next hlock => exact ⟨hunlock, hlock⟩

theorem classify_notACommand {c : Config} {Q : Bytes} (h : classify c Q = .notACommand) :
    Q ≠ c.tokenGrant.bytes ∧ Q ≠ c.tokenDeny.bytes ∧ parseCmd Q = .notACommand := by
  unfold classify at h
  split at h
  · cases h
  · next hgrant =>
    split at h
    · cases h
    · next hdeny => exact ⟨hgrant, hdeny, h⟩

/-- What CLASSIFY calls no command is the last row of the table (R85, R141). -/
theorem decodeText_unrecognized {c : Config} {Q : Bytes} (h : classify c Q = .notACommand) :
    decodeText c Q = .unrecognized Q := by
  obtain ⟨hgrant, hdeny, hcmd⟩ := classify_notACommand h
  obtain ⟨hunlock, hlock⟩ := parseCmd_notACommand hcmd
  rw [decodeText, if_neg hgrant, if_neg hdeny]
  cases hs : split Q with
  | nil => rfl
  | cons kind fields =>
    rw [hs] at hunlock hlock
    exact (if_neg hunlock).trans (if_neg hlock)

/-! ### Every row with a wire encoding -/

theorem decode_encodeUp_scan {c : Config} {p : Bytes} (h : UpHeader) (hpre : c.rxPrefix ≠ c.magic)
    (hp : fitsLengthByte p) : decode c (encodeUp c Config.mtScan h p) = .instr (.scan h p) := by
  obtain ⟨fr, ht, rfl, rfl, hdec⟩ := decode_encodeUp Config.mtScan h hpre hp
  rw [hdec, decodeUpRow_scan ht]

theorem decode_encodeUp_ack {c : Config} {p : Bytes} (h : UpHeader) (hpre : c.rxPrefix ≠ c.magic)
    (hack : c.mtAck ≠ Config.mtScan) (hp : fitsLengthByte p) (htext : c.mtAck = Config.mtStatus → isAckText p) :
    decode c (encodeUp c c.mtAck h p) = .instr (.ack h p) := by
  obtain ⟨fr, ht, rfl, rfl, hdec⟩ := decode_encodeUp c.mtAck h hpre hp
  rw [hdec, decodeUpRow_ack hack ht htext]

theorem decode_encodeUp_status {c : Config} {p : Bytes} (h : UpHeader) (hpre : c.rxPrefix ≠ c.magic)
    (hp : fitsLengthByte p) (htext : ¬ (c.mtAck = Config.mtStatus ∧ isAckText p)) :
    decode c (encodeUp c Config.mtStatus h p) = .instr (.status h p) := by
  obtain ⟨fr, ht, rfl, rfl, hdec⟩ := decode_encodeUp Config.mtStatus h hpre hp
  rw [hdec, decodeUpRow_status ht htext]

theorem fitsLengthByte_token (token : Byte5) : fitsLengthByte token.bytes :=
  (byte5_length token).trans_le (by decide)

theorem decode_encode {c : Config} {i : Instr} {B : Bytes} (hc : c.wf) (hi : i.wf c) (he : encode c i = some B) :
    decode c B = .instr i := by
  obtain ⟨hpre, hmtAck, htokens, -⟩ := hc
  cases i with
  | scan h p =>
    cases he
    exact decode_encodeUp_scan h hpre hi
  | status h p =>
    obtain ⟨hlen, htext⟩ := hi
    cases he
    exact decode_encodeUp_status h hpre hlen htext
  | ack h p =>
    obtain ⟨hlen, htext⟩ := hi
    cases he
    exact decode_encodeUp_ack h hpre hmtAck hlen htext
  | grant =>
    cases he
    rw [decode_encodeDn (fitsLengthByte_token _), decodeText_grant]
  | deny =>
    cases he
    rw [decode_encodeDn (fitsLengthByte_token _), decodeText_deny htokens]
  | remoteUnlock cid ini dur =>
    obtain ⟨hcid, hini, hdur, hlen⟩ := hi
    cases he
    rw [decode_encodeDn hlen, decodeText_remoteUnlock c (by simp [fieldOk, hcid, hini, hdur])]
  | remoteLock cid ini =>
    obtain ⟨hcid, hini, hlen⟩ := hi
    cases he
    rw [decode_encodeDn hlen, decodeText_remoteLock c (by simp [fieldOk, hcid, hini])]
  | invalidUnlock fields =>
    obtain ⟨hcount, hfields, hlen⟩ := hi
    cases he
    rw [decode_encodeDn hlen, decodeText_invalidUnlock c hfields hcount]
  | invalidLock fields =>
    obtain ⟨hcount, hfields, hlen⟩ := hi
    cases he
    rw [decode_encodeDn hlen, decodeText_invalidLock c hfields hcount]
  | unrecognized Q =>
    obtain ⟨hlen, hclass⟩ := hi
    cases he
    rw [decode_encodeDn hlen, decodeText_unrecognized hclass]
  | _ => cases he

/-- Settles O59: row by row; a STATUS with an acknowledgment's text under `MT_ACK = 6` has the bytes of that ACK. -/
theorem decodeInvertsEncode : Obligations.DecodeInvertsEncode := by
  refine ⟨fun c i B hc hi he => decode_encode hc hi he, fun c h p B hc hsame hp htext he => ?_⟩
  have hack : encode c (.ack h p) = some B := by
    rw [← he, encode, encode, hsame]
  exact decode_encode hc ⟨hp, fun _ => htext⟩ hack

/-- Settles O60: the first two frames are encodings, which decode to their rows; the third fails the channel test. -/
theorem decodeOfWrittenOutFrames : Obligations.DecodeOfWrittenOutFrames := by
  have href : Config.ref.wf := by decide
  refine ⟨decode_encode href ?_ ?_, decode_encode href trivial rfl, ?_⟩
  · decide
  · decide +kernel
  · rfl

end Sys2Proof.Machine
end

section
/-! PROOF. Bytes 3 and 4 of a downlink frame (spec 30_encoding R71): `DEC_DN` reads the buffer's length, its first three
bytes and what follows byte 4, and nothing else. -/

namespace Sys2Proof.Machine

theorem memRead1_add (B : Bytes) (n k : Nat) : memRead1 B (n + k) = memRead1 (B.drop n) k := by
  simp [memRead1, List.getD_eq_getElem?_getD]

theorem memRead4_add (B : Bytes) (n k : Nat) : memRead4 B (n + k) = memRead4 (B.drop n) k := by
  simp only [memRead4, Nat.add_assoc, memRead1_add B n]

theorem slice_add (B : Bytes) (n k m : Nat) : slice B (n + k) m = slice (B.drop n) k m := by
  rw [slice, slice, List.drop_drop]

/-- `DEC_DN` as a function of what it examines (R71, R96). -/
theorem decDn_congr (c : Config) {B B' : Bytes} (hlen : B'.length = B.length) (htake : B'.take 3 = B.take 3)
    (hdrop : B'.drop 5 = B.drop 5) : decDn c B' = decDn c B := by
  have hread (k : Nat) : memRead1 B' (5 + k) = memRead1 B (5 + k) := by
    rw [memRead1_add, memRead1_add, hdrop]
  have hread4 (n : Nat) : memRead4 B' (7 + n) = memRead4 B (7 + n) := by
    rw [show 7 + n = 5 + (2 + n) by omega, memRead4_add B', memRead4_add B, hdrop]
  have hslice (n : Nat) : slice B' 7 n = slice B 7 n := by
    rw [show 7 = 5 + 2 from rfl, slice_add, slice_add, hdrop]
  simp only [decDn, hlen, htake, hread 0, hread 1, hread4, hslice]

/-- Without `DN_CRC` no trailer is delivered, so `DN_RECEIVE` sees of a buffer only what `DEC_DN` delivers (R99). -/
theorem dnReceive_congr {c : Config} {B B' : Bytes} (hc : c.dnCrc = false) (hdec : decDn c B' = decDn c B) :
    dnReceive c B' = dnReceive c B := by
  unfold dnReceive dnReceiveWith
  rw [hdec]
  cases hB : decDn c B with
  | malformed r => rfl
  | frame fr =>
    obtain ⟨-, -, htrailer⟩ := decDn_frame c B fr hB
    rw [hc] at htrailer
    simp only [htrailer]
    rfl

/-- Settles O7: changing bytes 3 and 4 leaves what `DEC_DN` examines. -/
theorem downlinkBytes3And4Ignored : Obligations.DownlinkBytes3And4Ignored := by
  intro c B x y
  have hlen : ((B.set 3 x).set 4 y).length = B.length := by simp
  have htake : ((B.set 3 x).set 4 y).take 3 = B.take 3 := by
    rw [List.take_set_of_le (by decide), List.take_set_of_le (by decide)]
  have hdrop : ((B.set 3 x).set 4 y).drop 5 = B.drop 5 := by
    rw [List.drop_set_of_lt (by decide), List.drop_set_of_lt (by decide)]
  have hdec := decDn_congr c hlen htake hdrop
  exact ⟨hdec, fun hc => dnReceive_congr hc hdec⟩

end Sys2Proof.Machine
end

section
/-! PROOF. The encoder (spec 40_frame_codec R90 to R94, R100; 42_obfuscation R118): the packed bytes, the frame
`ENC` builds for each payload class, its shape, and the round trip through `UP_RECEIVE` for every stage with the two
laws. -/

namespace Sys2Proof.Machine

/-! ### Packed bytes -/

theorem packTv_eq_append (t v : Nibble) : packTv t v = (t ++ v : BitVec (4 + 4)) := by
  rw [BitVec.append_def, BitVec.shiftLeftZeroExtend_eq, BitVec.setWidth'_eq]
  rfl

/-- `PACK_FD` is the function `PACK_TV` is (R90, R91). -/
theorem packFd_eq_append (f d : Nibble) : packFd f d = (f ++ d : BitVec (4 + 4)) := packTv_eq_append f d

/-- Settles O1: the two packings are one function of their nibbles, with the inverse laws of the codec. -/
theorem nibblesPackAndUnpack : Obligations.NibblesPackAndUnpack := by
  intro t v b s
  have hpack : exec (.packTv t v) s = .next { s with result := some (.byte (t ++ v : BitVec (4 + 4))) } := by
    rw [← packTv_eq_append]
    rfl
  exact ⟨hpack, hpack, rfl, unpackNib_packTv t v, packTv_unpackNib b, unpackNib_packFd t v, packTv_unpackNib b⟩

/-! ### The frame of a payload class -/

/-- The identifier class rejects above its limit (R93). -/
theorem encWith_rejects {t : Nibble} {p : Bytes} (stage : Stage) (c : Config) (d : Nibble) (q : BitVec 16)
    (ts : BitVec 32) (ht : t = Config.mtScan) (hp : Config.idMax < p.length) :
    encWith stage c t d q ts p = .encodeRejected := by
  rw [encWith, classPayload, if_pos ht, if_pos hp]

/-- `ENC` closes the body of the payload its class carries (R93). -/
theorem encWith_of_classPayload {t : Nibble} {p P : Bytes} (stage : Stage) (c : Config) (d : Nibble) (q : BitVec 16)
    (ts : BitVec 32) (h : classPayload t p = some P) :
    encWith stage c t d q ts p =
      .frame (crcAppend (upBody c t c.version Config.flagsTx d q ts (stage P))) := by
  rw [encWith, h]

/-- Every frame `ENC` builds is such a closed body (R93). -/
theorem classPayload_of_encWith {stage : Stage} {c : Config} {t d : Nibble} {q : BitVec 16} {ts : BitVec 32}
    {p F : Bytes} (h : encWith stage c t d q ts p = .frame F) :
    ∃ P, classPayload t p = some P ∧ F = crcAppend (upBody c t c.version Config.flagsTx d q ts (stage P)) := by
  cases hP : classPayload t p with
  | none =>
    rw [encWith, hP] at h
    cases h
  | some P =>
    rw [encWith_of_classPayload stage c d q ts hP] at h
    exact ⟨P, rfl, (EncResult.frame.inj h).symm⟩

/-- The body byte by byte (R93): the packed bytes are concatenations, and the length byte counts the plain payload. -/
theorem upBody_stageOf (c : Config) (t v f d : Nibble) (q : BitVec 16) (ts : BitVec 32) (P : Bytes) :
    upBody c t v f d q ts (stageOf c P) =
      c.magic.bytes ++ [(t ++ v : BitVec (4 + 4)), (f ++ d : BitVec (4 + 4))] ++ le16 q ++ le32 ts ++
        [BitVec.ofNat 8 P.length] ++ xorTransform P c.key := by
  rw [upBody, packTv_eq_append, packFd_eq_append, stageOf_length, stageOf]

/-- Settles O2: the identifier class above and within its limit, then the string class. -/
theorem encBuildsFrameByClass : Obligations.EncBuildsFrameByClass := by
  intro t d q ts p s G whole
  have hwhole (P : Bytes) (hP : classPayload t p = some P) : enc s.cfg t d q ts p = whole P := by
    rw [enc, encWith_of_classPayload _ _ _ _ _ hP, upBody_stageOf]
    rfl
  have henc : enc s.cfg t d q ts p =
      if t = 1#4 then (if 10 < p.length then .encodeRejected else whole p) else whole (p.take 16) := by
    split
    · next hscan =>
      split
      · next hlong => exact encWith_rejects _ _ _ _ _ hscan hlong
      · next hshort => exact hwhole p (classPayload_within (fun _ => not_lt.mp hshort) (absurd hscan))
    · next hstring => exact hwhole (p.take 16) (if_neg hstring)
  rw [← henc]
  rfl

/-! ### The shape of a frame -/

/-- Byte 11 of a closed body is the length of its wire payload (R61). -/
theorem lengthByte_crcAppend_upBody (c : Config) (t v f d : Nibble) (q : BitVec 16) (ts : BitVec 32) {W : Bytes}
    (hW : W.length ≤ 255) : (memRead1 (crcAppend (upBody c t v f d q ts W)) 11).toNat = W.length :=
  (BitVec.toNat_ofNat W.length 8).trans (Nat.mod_eq_of_lt (by omega))

/-- Settles O3: a built frame is a closed body, whose wire payload is as long as the class payload. -/
theorem encodedFrameShape : Obligations.EncodedFrameShape := by
  intro stage c t d q ts p F hstage henc
  obtain ⟨P, hP, rfl⟩ := classPayload_of_encWith henc
  have hlen : P.length ≤ 16 := classPayload_length hP
  refine ⟨P, hP, hlen, ?_, ?_, rfl⟩
  · rw [crcAppend_length, upBody_length, hstage]
    omega
  · rw [lengthByte_crcAppend_upBody _ _ _ _ _ _ _ (by rw [hstage]; omega), hstage]

/-! ### The round trip -/

/-- The two laws of a stage (R118) at one payload give that payload back from the closed body of its wire form. -/
theorem upReceiveWith_staged {stage : Stage} {p : Bytes} (c : Config) (t v f d : Nibble) (q : BitVec 16)
    (ts : BitVec 32) (hlen : (stage p).length = p.length) (hinv : stage (stage p) = p) (hp : p.length ≤ 255) :
    upReceiveWith stage c (crcAppend (upBody c t v f d q ts (stage p))) = .frame
      { msgType := t, version := v, flags := f, deviceType := d, sequence := q, timestamp := ts,
        payloadLength := p.length, payload := p,
        checksum := crc32 ((upBody c t v f d q ts (stage p)).drop 3) } := by
  rw [upReceiveWith_built stage c t v f d q ts (stage p) (hlen.trans_le hp), hlen, hinv]

/-- Settles O10: a payload within its class's limit is carried whole, and the stage's laws give it back. -/
theorem roundTripForAnyStage : Obligations.RoundTripForAnyStage := by
  intro stage c t d q ts p hlen hinv hscan hstring
  have hP : classPayload t p = some p := classPayload_within hscan hstring
  have hp : p.length ≤ 255 := (classPayload_length hP).trans (by decide)
  exact ⟨_, _, encWith_of_classPayload stage c d q ts hP,
    upReceiveWith_staged c t c.version Config.flagsTx d q ts (hlen p) (hinv p) hp⟩

/-- Settles O9: the configured stage has the two laws; `DEC_UP` reads the wire payload of the closed body. -/
theorem uplinkRoundTrip : Obligations.UplinkRoundTrip := by
  intro c t d q ts p hscan hstring
  have hP : classPayload t p = some p := classPayload_within hscan hstring
  have hp : p.length ≤ 255 := (classPayload_length hP).trans (by decide)
  have hlen : (stageOf c p).length = p.length := stageOf_length c p
  have hdec := decUp_built c t c.version Config.flagsTx d q ts (stageOf c p)
    (crc32 ((upBody c t c.version Config.flagsTx d q ts (stageOf c p)).drop 3)) (hlen.trans_le hp)
  rw [hlen] at hdec
  exact ⟨_, _, _, encWith_of_classPayload (stageOf c) c d q ts hP, rfl,
    upReceiveWith_staged c t c.version Config.flagsTx d q ts hlen (stageOf_stageOf c p) hp, hdec⟩

end Sys2Proof.Machine
end

section
/-! PROOF. The decoders and the receive pipelines (spec 40_frame_codec R95, R96, R98, R99, R101): one equation per
test of `DEC_UP` and `DEC_DN`, in their order, and what each pipeline makes of what its decoder delivers. -/

namespace Sys2Proof.Machine

section Decoders

variable {c : Config} {B : Bytes}

/-! ### `DEC_UP` -/

theorem decUp_tooShort (hn : B.length < 16) : decUp c B = .malformed .tooShort := by
  rw [decUp, if_pos hn]

theorem decUp_badHeader (hn : 16 ≤ B.length) (hm : B.take 3 ≠ c.magic.bytes) :
    decUp c B = .malformed .badHeader := by
  rw [decUp, if_neg hn.not_gt, if_pos hm]

theorem decUp_lengthMismatch (hn : 16 ≤ B.length) (hm : B.take 3 = c.magic.bytes)
    (hL : 16 + (memRead1 B 11).toNat ≠ B.length) : decUp c B = .malformed .lengthMismatch := by
  rw [decUp, if_neg hn.not_gt, if_neg (not_not_intro hm)]
  exact if_pos hL

theorem decUp_accepts (hm : B.take 3 = c.magic.bytes) (hL : 16 + (memRead1 B 11).toNat = B.length) :
    decUp c B = .frame
      { msgType := (unpackNib (memRead1 B 3)).1, version := (unpackNib (memRead1 B 3)).2,
        flags := (unpackNib (memRead1 B 4)).1, deviceType := (unpackNib (memRead1 B 4)).2,
        sequence := memRead2 B 5, timestamp := memRead4 B 7, payloadLength := (memRead1 B 11).toNat,
        payload := slice B 12 (memRead1 B 11).toNat, checksum := memRead4 B (12 + (memRead1 B 11).toNat) } := by
  rw [decUp, if_neg (by omega), if_neg (not_not_intro hm)]
  exact if_neg (not_not_intro hL)

/-! ### `DEC_DN` -/

theorem decDn_tooShort (hn : B.length < 7 + dnTrailerLength c) : decDn c B = .malformed .tooShort := by
  rw [decDn, if_pos hn]

theorem decDn_badHeader (hn : 7 + dnTrailerLength c ≤ B.length) (hm : B.take 3 ≠ c.rxPrefix.bytes) :
    decDn c B = .malformed .badHeader := by
  rw [decDn, if_neg hn.not_gt, if_pos hm]

theorem decDn_badChannel (hn : 7 + dnTrailerLength c ≤ B.length) (hm : B.take 3 = c.rxPrefix.bytes)
    (hch : memRead1 B 5 ≠ c.rxChannel) : decDn c B = .malformed .badChannel := by
  rw [decDn, if_neg hn.not_gt, if_neg (not_not_intro hm), if_pos hch]

theorem decDn_lengthMismatch (hn : 7 + dnTrailerLength c ≤ B.length) (hm : B.take 3 = c.rxPrefix.bytes)
    (hch : memRead1 B 5 = c.rxChannel) (hL : 7 + (memRead1 B 6).toNat + dnTrailerLength c ≠ B.length) :
    decDn c B = .malformed .lengthMismatch := by
  rw [decDn, if_neg hn.not_gt, if_neg (not_not_intro hm), if_neg (not_not_intro hch)]
  exact if_pos hL

theorem decDn_accepts (hm : B.take 3 = c.rxPrefix.bytes) (hch : memRead1 B 5 = c.rxChannel)
    (hL : 7 + (memRead1 B 6).toNat + dnTrailerLength c = B.length) :
    decDn c B = .frame
      { payloadLength := (memRead1 B 6).toNat, payload := slice B 7 (memRead1 B 6).toNat,
        trailer := if c.dnCrc then some (memRead4 B (7 + (memRead1 B 6).toNat)) else none } := by
  rw [decDn, if_neg (by omega), if_neg (not_not_intro hm), if_neg (not_not_intro hch)]
  exact if_neg (not_not_intro hL)

/-! ### The receive pipelines -/

theorem crcVerify_iff {D : Bytes} {k : BitVec 32} : crcVerify D k = true ↔ crc32 D = k := beq_iff_eq

theorem upReceiveWith_malformed (stage : Stage) {r : MalformedReason} (h : decUp c B = .malformed r) :
    upReceiveWith stage c B = .malformed r := by
  rw [upReceiveWith, h]

/-- The checksum covers bytes 3 to the end of the payload (R98). -/
theorem upReceiveWith_frame (stage : Stage) {fr : UpFrame} (h : decUp c B = .frame fr) :
    upReceiveWith stage c B =
      if crc32 (slice B 3 (9 + fr.payloadLength)) = fr.checksum then .frame { fr with payload := stage fr.payload }
      else .checksumMismatch := by
  simp only [upReceiveWith, h, crcVerify_iff]

theorem dnReceiveWith_malformed (stage : Stage) {r : MalformedReason} (h : decDn c B = .malformed r) :
    dnReceiveWith stage c B = .malformed r := by
  rw [dnReceiveWith, h]

/-- A checksum is compared only with `DN_CRC`, with which alone the decoder delivers one (R99, 90_conflicts C8). -/
theorem dnReceiveWith_frame (stage : Stage) {fr : DnFrame} (h : decDn c B = .frame fr) :
    dnReceiveWith stage c B =
      if c.dnCrc = true ∧ crc32 (slice B 3 (4 + fr.payloadLength)) ≠ memRead4 B (7 + fr.payloadLength)
      then .checksumMismatch else .payload (stage fr.payload) := by
  obtain ⟨-, -, htrailer⟩ := decDn_frame c B fr h
  cases hc : c.dnCrc with
  | false =>
    rw [hc] at htrailer
    simp [dnReceiveWith, h, htrailer]
  | true =>
    rw [hc] at htrailer
    simp [dnReceiveWith, h, htrailer, crcVerify_iff]

end Decoders

/-- Settles O4: one equation of `DEC_UP` per clause; the buffer covers the payload its length byte declares. -/
theorem decUpTestsThenFields : Obligations.DecUpTestsThenFields := by
  intro B s
  refine ⟨decUp s.cfg B, rfl, decUp_tooShort, decUp_badHeader, decUp_lengthMismatch, fun hn hm hL => ?_⟩
  have hW : (slice B 12 (memRead1 B 11).toNat).length = (memRead1 B 11).toNat := by
    rw [slice, List.length_take, List.length_drop]
    omega
  refine ⟨slice B 12 (memRead1 B 11).toNat, hW, ?_, ?_⟩
  · rw [hW, slice]
  · rw [hW]
    exact decUp_accepts hm hL

/-- Settles O5: one equation of `DEC_DN` per clause. -/
theorem decDnTestsThenFields : Obligations.DecDnTestsThenFields := by
  intro B s
  exact ⟨decDn s.cfg B, rfl, decDn_tooShort, decDn_badHeader, decDn_badChannel, decDn_lengthMismatch,
    fun _ => decDn_accepts⟩

/-- Settles O6: the length test of each decoder, on the downlink with an empty trailer. -/
theorem wrongLengthIsRejected : Obligations.WrongLengthIsRejected := by
  refine ⟨fun c B hn hm hch hcrc hL => ?_, fun c B => decUp_lengthMismatch⟩
  have hT : dnTrailerLength c = 0 := by simp [dnTrailerLength, hcrc]
  exact decDn_lengthMismatch (by rwa [hT]) hm hch (by rwa [hT])

/-- Settles O8: by what each decoder delivers, a reason or a frame. -/
theorem receivePipelines : Obligations.ReceivePipelines := by
  intro B s
  have hup : exec (.upReceive B) s =
      .next (returnValue (.upReceived (upReceive s.cfg B) (upReceiveRaises (upReceive s.cfg B))) s) := rfl
  have hdn : exec (.dnReceive B) s = .next (returnValue (.dnReceived (dnReceive s.cfg B)) s) := rfl
  constructor
  · refine ⟨upReceiveRaises (upReceive s.cfg B), hup.trans ?_⟩
    generalize upReceiveRaises (upReceive s.cfg B) = raised
    cases h : decUp s.cfg B with
    | malformed r => rw [upReceive, upReceiveWith_malformed _ h]; rfl
    | frame fr => rw [upReceive, upReceiveWith_frame _ h]; rfl
  · rw [hdn]
    cases h : decDn s.cfg B with
    | malformed r => rw [dnReceive, dnReceiveWith_malformed _ h]; rfl
    | frame fr => rw [dnReceive, dnReceiveWith_frame _ h]; rfl

end Sys2Proof.Machine
end

section
/-! PROOF. The Integrity Stage (spec 41_integrity R105 to R108): the recursion of the checksum register as a fold over
bytes and passes, its sensitivity to every single byte, and the trailer `CRC_APPEND` writes read back and verified. -/

namespace Sys2Proof.Machine

/-! ### The checksum as a fold -/

/-- One pass with the test and the polynomial of R105 written out. -/
theorem crcBit_eq_ite_getLsbD (x : BitVec 32) :
    crcBit x = if x.getLsbD 31 then (x <<< 1) ^^^ 0x04C11DB7#32 else x <<< 1 := by
  rw [crcBit, BitVec.msb_eq_getLsbD_last]
  rfl

/-- A fold that ignores its list's elements makes as many passes as the list is long. -/
theorem crcBits_length_eq_foldl {α : Type} (l : List α) (x : BitVec 32) :
    crcBits l.length x = l.foldl (fun y _ => crcBit y) x := by
  induction l generalizing x with
  | nil => rfl
  | cons a rest ih => exact ih (crcBit x)

theorem crcBytes_eq_foldl (D : Bytes) (x : BitVec 32) : crcBytes x D = D.foldl crcByte x := by
  induction D generalizing x with
  | nil => rfl
  | cons b rest ih => exact ih (crcByte x b)

/-- The byte step as R105 writes it. -/
theorem crcByte_eq_bitSerial (x : BitVec 32) (b : Byte) :
    crcByte x b = (List.range 8).foldl
      (fun y _ => if y.getLsbD 31 then (y <<< 1) ^^^ 0x04C11DB7#32 else y <<< 1) (x ^^^ (b.setWidth 32 <<< 24)) := by
  have hpasses := crcBits_length_eq_foldl (List.range 8) (x ^^^ (b.setWidth 32 <<< 24))
  simp only [crcBit_eq_ite_getLsbD] at hpasses
  exact hpasses

/-- Settles O12: the register's recursion is the fold over the bytes of the fold over eight passes. -/
theorem crc32IsTheBitSerialFold : Obligations.Crc32IsTheBitSerialFold := by
  intro D s
  have hexec : exec (.crc32 D) s = .next { s with result := some (.checksum (crc32 D)) } := rfl
  rw [hexec, crc32, crcBytes_eq_foldl, funext₂ crcByte_eq_bitSerial]

/-! ### A changed byte -/

/-- The checksum determines the byte at a place when everything before and after it is given (R106): the bytes after it
keep registers apart, and the register before it is one. -/
theorem crc32_injective_byte {A B : Bytes} {b b' : Byte} (h : crc32 (A ++ b :: B) = crc32 (A ++ b' :: B)) :
    b = b' := by
  have hregister : crcBytes 0xFFFFFFFF#32 (A ++ b :: B) = crcBytes 0xFFFFFFFF#32 (A ++ b' :: B) :=
    (BitVec.xor_left_inj _).mp h
  rw [crcBytes_append, crcBytes_append] at hregister
  exact crcByte_injective_byte (crcBytes_injective B hregister)

/-- Settles O13: the sequence and the changed one agree before and after the byte, which the checksum determines. -/
theorem crc32DetectsAnyOneByteChange : Obligations.Crc32DetectsAnyOneByteChange := by
  intro D i old new hold hne hcrc
  obtain ⟨hi, rfl⟩ := List.getElem?_eq_some_iff.mp hold
  obtain ⟨A, B, hD, -, hset⟩ := List.exists_of_set (a' := new) hi
  rw [hset] at hcrc
  exact hne (crc32_injective_byte (hcrc.trans (congrArg crc32 hD)))

/-! ### The generator and the verifier -/

/-- The last four bytes of what `CRC_APPEND` returns are the checksum (R107). -/
theorem memRead4_crcAppend (G : Bytes) : memRead4 (crcAppend G) G.length = crc32 (G.drop 3) := by
  have hread := memRead4_le32 G [] (crc32 (G.drop 3))
  rwa [List.append_nil] at hread

/-- The region the checksum covers stands unchanged in what `CRC_APPEND` returns (R107). -/
theorem coveredRegion_crcAppend {G : Bytes} (hG : 3 ≤ G.length) :
    ((crcAppend G).drop 3).take (G.length - 3) = G.drop 3 := by
  rw [crcAppend, List.drop_append_of_le_length hG]
  exact List.take_left' List.length_drop

/-- Settles O14: the appended checksum and the region it covers are read back, and verification recomputes it. -/
theorem checksumAppendAndVerify : Obligations.ChecksumAppendAndVerify := by
  intro G D k s
  refine ⟨rfl, rfl, memRead4_crcAppend G, fun hG => crcVerify_iff.mpr ?_⟩
  rw [coveredRegion_crcAppend hG, memRead4_crcAppend]

end Sys2Proof.Machine
end

section
/-! PROOF. The Obfuscation Stage (spec 42_obfuscation R115, R117): what each byte of the transform's result is, and that
the transform undoes itself. -/

namespace Sys2Proof.Machine

/-- The byte at place `j` of what the transform answers from place `i` on meets the key byte of the place `i + j`, past
the key's end the key's beginning again (R115). -/
theorem getElem?_xorFrom (K P : Bytes) (i j : Nat) :
    (xorFrom K i P)[j]? = P[j]?.map (· ^^^ memRead1 K ((i + j) % K.length)) := by
  induction P generalizing i j with
  | nil => rfl
  | cons p rest ih =>
    cases j with
    | zero => rfl
    | succ j =>
      have hplace : i + 1 + j = i + (j + 1) := by omega
      rw [xorFrom, List.getElem?_cons_succ, List.getElem?_cons_succ, ih, hplace]

/-- The empty key reads 0 at every place, so the equation holds for it as well (R115). -/
theorem getElem?_xorTransform (P K : Bytes) (i : Nat) :
    (xorTransform P K)[i]? = P[i]?.map (· ^^^ memRead1 K (i % K.length)) := by
  cases K with
  | nil =>
    have hzero : (· ^^^ memRead1 [] (i % 0)) = (id : Byte → Byte) := funext fun _ => BitVec.xor_zero
    rw [xorTransform, List.length_nil, hzero, Option.map_id_fun, id]
  | cons k rest =>
    rw [xorTransform, getElem?_xorFrom, Nat.zero_add]

/-- Settles O15: the length lemma of the stage, and the byte at each place by `getElem?_xorTransform`. -/
theorem xorTransformByteByByte : Obligations.XorTransformByteByByte := by
  intro P K s
  have hexec : exec (.xorTransform P K) s = .next { s with result := some (.bytes (xorTransform P K)) } := rfl
  refine ⟨xorTransform P K, hexec, xorTransform_length P K, ?_, fun i p k hp hk => ?_⟩
  · rintro rfl
    rfl
  · have hread : memRead1 K (i % K.length) = k := by rw [memRead1, List.getD_eq_getElem?_getD, hk, Option.getD_some]
    rw [getElem?_xorTransform, hp, hread, Option.map_some]

/-- Settles O16: `xorTransform_xorTransform`, under every key. -/
theorem xorTransformIsAnInvolution : Obligations.XorTransformIsAnInvolution :=
  xorTransform_xorTransform

end Sys2Proof.Machine
end

section
/-! PROOF. The Uplink Sender's operations (spec 43_uplink_sender R123 to R128): each is one send of a built frame, the
condition of a rejected identifier, or nothing. -/

namespace Sys2Proof.Machine

/-! ### What `TX_FRAME` builds and sends -/

/-- The whole seconds of a clock sample, reduced to 32 bits explicitly (R123). -/
theorem timestampOf_eq_mod (now : Nat) : timestampOf now = BitVec.ofNat 32 (now / 1000 % 2 ^ 32) :=
  BitVec.eq_of_toNat_eq (by simp [timestampOf])

theorem add_one_eq_ofNat_mod (q : BitVec 16) : q + 1#16 = BitVec.ofNat 16 ((q.toNat + 1) % 65536) :=
  BitVec.eq_of_toNat_eq (by simp)

/-- `ENC` answers a frame for every payload `TX_FRAME` may be given (R93, R123). -/
theorem enc_eq_frame {t : Nibble} {p : Bytes} (c : Config) (d : Nibble) (q : BitVec 16) (ts : BitVec 32)
    (h : t = Config.mtScan → p.length ≤ Config.idMax) : ∃ F, enc c t d q ts p = .frame F :=
  ⟨_, encWith_of_classPayload (stageOf c) c d q ts (classPayload_eq_some h)⟩

/-- Bytes 5 and 6 of a frame are its sequence number (R61). -/
theorem slice_sequence_of_enc {c : Config} {t d : Nibble} {q : BitVec 16} {ts : BitVec 32} {p F : Bytes}
    (h : enc c t d q ts p = .frame F) : slice F 5 2 = le16 q := by
  obtain ⟨P, -, rfl⟩ := classPayload_of_encWith h
  rfl

theorem txFrame_of_enc {now : Nat} {t : Nibble} {p F : Bytes} {s : State}
    (h : enc s.cfg t s.cfg.deviceType s.seq (timestampOf now) p = .frame F) :
    txFrame now t p s = afterSend s F := by
  rw [txFrame, h]
  exact transmit_eq F s

/-- Settles O23: the frame `ENC` answers is sent, and its sequence bytes are those of the old `SEQ`. -/
theorem txFrameSendsAndCounts : Obligations.TxFrameSendsAndCounts := by
  intro now t p s hp
  obtain ⟨F, hF⟩ := enc_eq_frame s.cfg s.cfg.deviceType s.seq (timestampOf now) hp
  have hseq : slice F 5 2 = le16 s.seq := slice_sequence_of_enc hF
  have hexec : exec (.txFrame now t p) s = .next (afterSend s F) := congrArg _ (txFrame_of_enc hF)
  refine ⟨F, ?_, hseq, ?_⟩
  · rw [← timestampOf_eq_mod]
    exact hF
  · rw [hexec, afterSend, sendCalls, hseq, add_one_eq_ofNat_mod]

/-! ### The three senders and the uplink rows -/

/-- Settles O24: `SEND_SCAN` on both sides of the identifier limit. -/
theorem sendScanRejectsLongOrSends : Obligations.SendScanRejectsLongOrSends := by
  intro now id s
  have hexec : exec (.sendScan now id) s =
      .next (returnValue (.scanSent (sendScan now id s).1) (sendScan now id s).2) := rfl
  refine ⟨fun hlong => ?_, fun hshort => ?_⟩
  · rw [hexec, sendScan_long now id s hlong]
    rfl
  · rw [hexec, sendScan_short now id s hshort]
    rfl

/-- Settles O25: neither type is SCAN, by the value of `MT_STATUS` and by R7's constraint on `MT_ACK`. -/
theorem sendStatusAndSendAck : Obligations.SendStatusAndSendAck := by
  rintro now text cid flag s ⟨-, hack, -⟩
  exact ⟨congrArg _ (sendStatus_eq now text s), congrArg _ (sendAck_eq now cid flag text s hack)⟩

/-- Settles O26: each row is its sender at the recorded clock sample; its own header is not used. -/
theorem uplinkRowsTransmit : Obligations.UplinkRowsTransmit := by
  rintro h p s ⟨-, hack, -⟩
  have hscan : exec (.scan h p) s = .next (sendScan s.clock p s).2 := rfl
  refine ⟨fun hlong => ?_, fun hshort => ?_, congrArg _ (sendStatus_eq s.clock p s),
    congrArg _ (txFrame_eq s.clock s.cfg.mtAck p s fun e => absurd e hack)⟩
  · rw [hscan, sendScan_long s.clock p s hlong]
    rfl
  · rw [hscan, sendScan_short s.clock p s hshort]
    rfl

/-! ### The heartbeat -/

theorem heartbeat_disabled {now : Nat} {s : State} (h : s.cfg.heartbeatInterval = none) : heartbeat now s = s := by
  rw [heartbeat, h]

/-- With a positive interval the truncated difference of R128 compares as the sum does (log entry 16). -/
theorem heartbeat_enabled {now k : Nat} {s : State} (h : s.cfg.heartbeatInterval = some k) (hk : 0 < k) :
    heartbeat now s =
      if s.hbLast + k ≤ now then { sendStatus now s.cfg.heartbeatText s with hbLast := now } else s := by
  have hiff : k ≤ now - s.hbLast ↔ s.hbLast + k ≤ now := by omega
  simp only [heartbeat, h, hiff]

/-- Settles O27: disabled, before the interval has elapsed, and from then on. -/
theorem heartbeatWhenIntervalElapsed : Obligations.HeartbeatWhenIntervalElapsed := by
  rintro now s ⟨-, -, -, -, hzero⟩
  have hexec : exec (.heartbeat now) s = .next (heartbeat now s) := rfl
  have hpos {k : Nat} (h : s.cfg.heartbeatInterval = some k) : 0 < k := by
    rw [h] at hzero
    exact Nat.pos_of_ne_zero fun hk => hzero (congrArg some hk)
  refine ⟨fun h => ?_, fun k h hlt => ?_, fun k h hle => ?_⟩
  · rw [hexec, heartbeat_disabled h]
  · rw [hexec, heartbeat_enabled h (hpos h), if_neg (by omega)]
  · rw [hexec, heartbeat_enabled h (hpos h), if_pos hle, sendStatus_eq]
    rfl

end Sys2Proof.Machine
end

section
/-! PROOF. Every frame a step sends is a valid frame of the block (spec 43_uplink_sender R122): a predicate on the calls
made since a step began, which every operation that a step runs keeps. -/

namespace Sys2Proof.Machine

/-- What `ENC` builds from the block's own fields, `UP_RECEIVE` accepts and reads back (R98, R122). -/
theorem sentFrameOk_of_enc {c : Config} {now : Nat} {t : Nibble} {q : BitVec 16} {p F : Bytes}
    (ht : t = Config.mtScan ∨ t = Config.mtStatus ∨ t = c.mtAck)
    (h : enc c t c.deviceType q (timestampOf now) p = .frame F) : sentFrameOk c now F := by
  obtain ⟨P, hP, rfl⟩ := classPayload_of_encWith h
  have hlen : (stageOf c P).length ≤ 255 := by
    rw [stageOf_length]
    exact (classPayload_length hP).trans (by decide)
  exact ⟨_, upReceiveWith_built (stageOf c) c t _ _ _ q (timestampOf now) (stageOf c P) hlen, ht, rfl, rfl, rfl, rfl⟩

/-- A state within a step at the clock sample `now`, under the straps `c` and with the calls `old` made before the step:
the frames sent since are valid. -/
structure SendsValid (c : Config) (now : Nat) (old : List EnvCall) (s : State) : Prop where
  cfg : s.cfg = c
  clock : s.clock = now
  frames : ∃ new, s.calls = old ++ new ∧ ∀ F ∈ framesOf new, sentFrameOk c now F

section Operations

variable {c : Config} {now : Nat} {old : List EnvCall} {s : State}

/-- Before the first call nothing has been sent. -/
theorem SendsValid.start (hcfg : s.cfg = c) (hclock : s.clock = now) (hcalls : s.calls = old) :
    SendsValid c now old s :=
  ⟨hcfg, hclock, [], by simp [hcalls], by simp [framesOf]⟩

/-- Writing a record sends nothing. -/
theorem SendsValid.of_same {t : State} (h : SendsValid c now old s) (hcfg : t.cfg = s.cfg)
    (hclock : t.clock = s.clock) (hcalls : t.calls = s.calls) : SendsValid c now old t := by
  obtain ⟨new, hnew, hok⟩ := h.frames
  exact ⟨hcfg.trans h.cfg, hclock.trans h.clock, new, hcalls.trans hnew, hok⟩

/-- Further calls keep the predicate when the frames among them are valid. -/
theorem SendsValid.append {t : State} {more : List EnvCall} (h : SendsValid c now old s) (hcfg : t.cfg = s.cfg)
    (hclock : t.clock = s.clock) (hcalls : t.calls = s.calls ++ more)
    (hmore : ∀ F ∈ framesOf more, sentFrameOk c now F) : SendsValid c now old t := by
  obtain ⟨new, hnew, hok⟩ := h.frames
  refine ⟨hcfg.trans h.cfg, hclock.trans h.clock, new ++ more, ?_, fun F hF => ?_⟩
  · rw [hcalls, hnew, List.append_assoc]
  · rw [framesOf_append, List.mem_append] at hF
    exact hF.elim (hok F) (hmore F)

theorem SendsValid.raise (h : SendsValid c now old s) (d : Diag) : SendsValid c now old (raise d s) :=
  h.append rfl rfl rfl nofun

theorem SendsValid.act (h : SendsValid c now old s) (a : Actuation) : SendsValid c now old (act a s) :=
  h.append rfl rfl rfl nofun

theorem SendsValid.report (h : SendsValid c now old s) (o : XOutcome) : SendsValid c now old (report o s) :=
  h.append rfl rfl rfl nofun

/-! ### The Uplink Sender -/

/-- One send at the step's clock sample of one of the three types (R122, R123). -/
theorem SendsValid.txFrame (h : SendsValid c now old s) {t : Nibble}
    (ht : t = Config.mtScan ∨ t = Config.mtStatus ∨ t = s.cfg.mtAck) (p : Bytes) :
    SendsValid c now old (txFrame now t p s) := by
  obtain heq | ⟨F, henc, heq⟩ := txFrame_cases now t p s <;> rw [heq]
  · exact h
  · have hF : sentFrameOk c now F := h.cfg ▸ sentFrameOk_of_enc ht henc
    refine h.append rfl rfl rfl fun F' hF' => ?_
    rw [framesOf_sendCalls, List.mem_singleton] at hF'
    exact hF' ▸ hF

theorem SendsValid.sendStatus (h : SendsValid c now old s) (text : Bytes) :
    SendsValid c now old (sendStatus now text s) :=
  h.txFrame (.inr (.inl rfl)) text

theorem SendsValid.sendAck (h : SendsValid c now old s) (cid : Bytes) (flag : Byte) (text : Bytes) :
    SendsValid c now old (sendAck now cid flag text s) :=
  h.txFrame (.inr (.inr rfl)) _

theorem SendsValid.heartbeat (h : SendsValid c now old s) : SendsValid c now old (heartbeat now s) := by
  obtain heq | heq := heartbeat_cases now s <;> rw [heq]
  · exact h
  · exact (h.sendStatus _).of_same rfl rfl rfl

/-! ### The dispatcher and the Exchange State Machine -/

theorem SendsValid.invalidUnlock (h : SendsValid c now old s) (cid : Bytes) :
    SendsValid c now old (invalidUnlock now cid s) :=
  (h.raise _).sendAck cid _ _

theorem SendsValid.remoteUnlock (h : SendsValid c now old s) (cid ini : Bytes) (d : Nat) :
    SendsValid c now old (remoteUnlock now cid ini d s) :=
  ((h.of_same (t := setCommand .unlock cid ini d s) rfl rfl rfl).act .openGate).of_same rfl rfl rfl

theorem SendsValid.remoteLock (h : SendsValid c now old s) (cid ini : Bytes) :
    SendsValid c now old (remoteLock now cid ini s) := by
  have hact := (h.of_same (t := setCommand .lock cid ini 0 s) rfl rfl rfl).act .closeGate
  exact ((hact.sendAck cid Config.ackOk s.cfg.ackTextLock).sendStatus Config.statusClosed).of_same rfl rfl rfl

theorem SendsValid.xOpen (h : SendsValid c now old s) (id : Bytes) : SendsValid c now old (xOpen now id s) := by
  by_cases hlen : Config.idMax < id.length
  · rw [Machine.xOpen, sendScan_long now id s hlen]
    exact h.raise _
  · rw [Machine.xOpen, Machine.sendScan, if_neg hlen]
    exact (h.txFrame (.inl rfl) id).of_same rfl rfl rfl

theorem SendsValid.xGrant (h : SendsValid c now old s) : SendsValid c now old (xGrant now s) := by
  have hreport := (h.of_same (t := resolve .granted .granted s) rfl rfl rfl).report .granted
  exact ((hreport.act .openGate).sendStatus Config.statusOpen).of_same rfl rfl rfl

theorem SendsValid.xDeny (h : SendsValid c now old s) : SendsValid c now old (xDeny now s) := by
  rw [xDeny_eq]
  exact (h.report .denied).of_same rfl rfl rfl

theorem SendsValid.xTimeout (h : SendsValid c now old s) : SendsValid c now old (xTimeout now s) := by
  rw [xTimeout_eq]
  exact ((h.raise _).report .timedOut).of_same rfl rfl rfl

theorem SendsValid.holdFinish (h : SendsValid c now old s) : SendsValid c now old (holdFinish now s) := by
  have hact := h.act .closeGate
  unfold Machine.holdFinish
  cases hc : s.holdCause with
  | grant =>
    simp only [act_holdCause, hc]
    exact (hact.sendStatus Config.statusClosed).of_same rfl rfl rfl
  | unlock =>
    simp only [act_holdCause, hc]
    have hack := hact.sendAck s.cmdId Config.ackOk s.cfg.ackTextUnlock
    exact (hack.sendStatus Config.statusClosed).of_same rfl rfl rfl

theorem SendsValid.rxProcess (h : SendsValid c now old s) (B : Bytes) : SendsValid c now old (rxProcess now B s) := by
  obtain ⟨d, heq⟩ | ⟨-, heq⟩ | ⟨-, heq⟩ | ⟨cid, ini, d, -, -, -, -, heq⟩ | ⟨cid, ini, heq⟩ | ⟨cid, heq⟩ :=
    rxProcess_cases now B s <;> rw [heq]
  · exact h.raise d
  · exact h.xGrant
  · exact h.xDeny
  · exact h.remoteUnlock cid ini d
  · exact h.remoteLock cid ini
  · exact h.invalidUnlock cid

end Operations

/-- `LOOP_STEP` samples the clock, takes answers and runs operations that send at that sample (R136). -/
theorem sendsValid_loopStep (now : Nat) (s : State) : SendsValid s.cfg now s.calls (loopStep now s) := by
  have hclock : SendsValid s.cfg now s.calls (sampleClock now s) := .start rfl rfl rfl
  obtain ⟨-, -, heq⟩ | ⟨-, -, heq⟩ | ⟨-, -, -, heq⟩ | ⟨-, -, -, -, heq⟩ | ⟨-, -, -, -, -, heq⟩ |
    ⟨B, -, -, -, -, -, heq⟩ | ⟨id, -, -, -, heq⟩ | ⟨-, -, -, -, heq⟩ | ⟨B, t, -, -, -, -, ht, heq⟩ :=
    loopStep_cases now s <;> rw [heq]
  · exact hclock
  · exact hclock.holdFinish
  · exact hclock.xTimeout
  · exact hclock
  · exact .start rfl rfl rfl
  · refine .rxProcess ?_ B
    exact .start rfl rfl rfl
  · refine .xOpen ?_ id
    exact .start rfl rfl rfl
  · refine .heartbeat ?_
    exact .start rfl rfl rfl
  · have hrx : SendsValid s.cfg now s.calls t := by
      rw [ht]
      refine .rxProcess ?_ B
      exact .start rfl rfl rfl
    split
    · exact hrx
    · exact hrx.heartbeat

/-- Every step answers a state whose frames since the step began are valid at its clock: RESET and the pure operations
send none. -/
theorem sendsValid_step {s t : State} (hst : step s = .next t) : SendsValid s.cfg t.clock s.calls t := by
  obtain ⟨now, u, heq, hu⟩ | ⟨u, heq, hu⟩ | ⟨i, u, hp, heq, hu⟩ | heq := step_cases s
  · cases heq.symm.trans hst
    have hloop := sendsValid_loopStep now u
    rw [hloop.clock]
    rw [hu] at hloop ⊢
    exact hloop
  · cases heq.symm.trans hst
    rw [hu]
    exact .start rfl rfl rfl
  · obtain ⟨v, hv⟩ := exec_of_isPure hp u
    cases hv.symm.trans (heq.symm.trans hst)
    rw [hu]
    exact .start rfl rfl rfl
  · cases heq.symm.trans hst

/-- Settles O55: `sendsValid_step`; no clause of the invariant is needed. -/
theorem everyFrameSentIsWellFormed : Obligations.EveryFrameSentIsWellFormed := by
  intro s t _ hst F hF
  obtain ⟨new, hcalls, hok⟩ := (sendsValid_step hst).frames
  rw [newCalls, hcalls, List.drop_left] at hF
  exact hok F hF

end Sys2Proof.Machine
end

section
/-! PROOF. The operations of the Exchange State Machine (spec 44_exchange_fsm R138, R142 to R148): the exact next state
of each. -/

namespace Sys2Proof.Machine

/-! ### Opening and resolving an exchange -/

/-- Settles O34: `X_OPEN` on both sides of the identifier limit. -/
theorem xOpenOpensOneExchange : Obligations.XOpenOpensOneExchange := by
  intro now id s
  have hexec : exec (.xOpen now id) s = .next (xOpen now id s) := rfl
  refine ⟨fun hlong => ?_, fun hshort => ?_⟩
  · rw [hexec, xOpen, sendScan_long now id s hlong]
    rfl
  · rw [hexec, xOpen, sendScan_short now id s hshort]
    rfl

/-- A grant makes two calls, sends STATUS `open` and starts the hold (R142). -/
theorem xGrant_eq_afterSend (now : Nat) (s : State) :
    xGrant now s = startHold .grant (now + s.cfg.grantHold)
      (afterSend (act .openGate (report .granted (resolve .granted .granted s)))
        (builtFrame (act .openGate (report .granted (resolve .granted .granted s))) now Config.mtStatus
          Config.statusOpen)) := by
  rw [xGrant, sendStatus_eq]
  rfl

/-- Settles O35: the two calls of `xGrant_eq_afterSend` stand before the send. -/
theorem xGrantReportsOpensHolds : Obligations.XGrantReportsOpensHolds := by
  intro now s
  have hcalls : act .openGate (report .granted (resolve .granted .granted s)) =
      { s with xoutcome := .granted, xstate := .granted
               calls := s.calls ++ [.report .granted, .act .openGate] } := by
    simp only [act, report, resolve, emit, List.append_assoc, List.cons_append, List.nil_append]
  have hexec : exec (.xGrant now) s = .next (xGrant now s) := rfl
  rw [hexec, xGrant_eq_afterSend, hcalls]
  rfl

/-- Settles O36: the outcome each of the two writes first does not survive `X_CLOSE`. -/
theorem denyTimeoutAndClose : Obligations.DenyTimeoutAndClose := by
  intro now s
  refine ⟨rfl, ?_, rfl⟩
  have hexec : exec (.xTimeout now) s = .next (xTimeout now s) := rfl
  rw [hexec, xTimeout_eq]
  simp only [xClose, report, raise, emit, List.append_assoc, List.cons_append, List.nil_append]

/-! ### Ending a hold -/

theorem holdFinish_of_grant {s : State} (now : Nat) (h : s.holdCause = .grant) :
    holdFinish now s = endHold (xClose (sendStatus now Config.statusClosed (act .closeGate s))) := by
  simp only [holdFinish, act_holdCause, h]

theorem holdFinish_of_unlock {s : State} (now : Nat) (h : s.holdCause = .unlock) :
    holdFinish now s = endHold (cmdClear (sendStatus now Config.statusClosed
      (sendAck now s.cmdId Config.ackOk s.cfg.ackTextUnlock (act .closeGate s)))) := by
  simp only [holdFinish, act_holdCause, h, act_cmdId, act_cfg]

/-- Settles O37: each cause, with its sends as sends of built frames. -/
theorem holdFinishByCause : Obligations.HoldFinishByCause := by
  rintro now s ⟨-, hack, -⟩
  have hexec : exec (.holdFinish now) s = .next (holdFinish now s) := rfl
  refine ⟨fun hc => ?_, fun hc => ?_⟩
  · rw [hexec, holdFinish_of_grant now hc, sendStatus_eq]
    rfl
  · rw [hexec, holdFinish_of_unlock now hc, sendAck_eq _ _ _ _ (act .closeGate s) hack, sendStatus_eq]
    rfl

theorem holdFinish_holdActive (now : Nat) (s : State) : (holdFinish now s).holdActive = false := rfl

theorem holdFinish_answers (now : Nat) (s : State) :
    (holdFinish now s).pollAnswers = s.pollAnswers ∧ (holdFinish now s).sensorAnswers = s.sensorAnswers := by
  obtain ⟨t, hs, heq⟩ := holdFinish_eq now s
  rw [heq]
  cases s.holdCause with
  | grant => exact hs.answers
  | unlock => exact hs.answers

/-! ### The decision tokens -/

theorem onToken_grant {s : State} (now : Nat) (h : s.xstate = .awaitingDecision) :
    onToken .grant now s = xGrant now s := if_pos h

theorem onToken_deny {s : State} (now : Nat) (h : s.xstate = .awaitingDecision) :
    onToken .deny now s = xDeny now s := if_pos h

theorem onToken_stray {s : State} (d : Decision) (now : Nat) (h : s.xstate ≠ .awaitingDecision) :
    onToken d now s = raise (.strayDecision d) s := if_neg h

theorem xGrant_xstate (now : Nat) (s : State) : (xGrant now s).xstate = .granted := by
  rw [xGrant_eq_afterSend]
  rfl

/-- Settles O38: a token row is `onToken` at the clock sample. -/
theorem tokensResolveOrAreStray : Obligations.TokensResolveOrAreStray := by
  intro s
  have hgrant : exec .grant s = .next (onToken .grant s.clock s) := rfl
  have hdeny : exec .deny s = .next (onToken .deny s.clock s) := rfl
  refine ⟨fun h => ?_, fun h => ?_⟩
  · rw [hgrant, hdeny, onToken_grant _ h, onToken_deny _ h]
    exact ⟨rfl, rfl, ⟨_, rfl, xGrant_xstate _ s⟩, ⟨_, rfl, rfl⟩⟩
  · rw [hgrant, hdeny, onToken_stray _ _ h, onToken_stray _ _ h]
    exact ⟨rfl, rfl⟩

end Sys2Proof.Machine
end

section
/-! PROOF. `RX_PROCESS` (spec 44_exchange_fsm R140, R141): a buffer that is no frame is discarded, and a payload runs
the row that 30_encoding R85 gives it, because the decoder and CLASSIFY read a text alike. -/

namespace Sys2Proof.Machine

/-- Settles O21: the definition of CLASSIFY is the chain of R141. -/
theorem classifyTokensFirst : Obligations.ClassifyTokensFirst := fun _ _ => rfl

theorem rxProcess_malformed {B : Bytes} {s : State} {r : MalformedReason} (now : Nat)
    (h : dnReceive s.cfg B = .malformed r) : rxProcess now B s = raise (.malformedFrame r) s := by
  rw [rxProcess, h]

theorem rxProcess_checksumMismatch {B : Bytes} {s : State} (now : Nat)
    (h : dnReceive s.cfg B = .checksumMismatch) : rxProcess now B s = raise .checksumMismatch s := by
  rw [rxProcess, h]

theorem rxProcess_payload {B Q : Bytes} {s : State} (now : Nat) (h : dnReceive s.cfg B = .payload Q) :
    rxProcess now B s = rxPayload now Q s := by
  rw [rxProcess, h]

/-- Settles O39: both ways a buffer is no frame. -/
theorem rxProcessDiscardsBadBuffers : Obligations.RxProcessDiscardsBadBuffers := fun now _ _ =>
  ⟨fun _ h => congrArg _ (rxProcess_malformed now h), fun h => congrArg _ (rxProcess_checksumMismatch now h)⟩

/-! ### The decoder and CLASSIFY read a text alike -/

/-- A row of the table and what CLASSIFY answers for the same text (R85, R141, R162): CLASSIFY keeps the operands that
the operation uses. -/
inductive RowClassified (Q : Bytes) : Instr → Classified → Prop
  | grant : RowClassified Q .grant .grantToken
  | deny : RowClassified Q .deny .denyToken
  | unlock (cid ini dur : Bytes) :
    RowClassified Q (.remoteUnlock cid ini dur) (.unlock cid ini (clampDuration (parseDuration dur)))
  | invalidUnlock (fields : List Bytes) : RowClassified Q (.invalidUnlock fields) (.invalidUnlock (fields.headD []))
  | lock (cid ini : Bytes) : RowClassified Q (.remoteLock cid ini) (.lock cid ini)
  | invalidLock (fields : List Bytes) : RowClassified Q (.invalidLock fields) .invalidLock
  | unrecognized : RowClassified Q (.unrecognized Q) .notACommand

theorem rowClassified_decodeText (c : Config) (Q : Bytes) : RowClassified Q (decodeText c Q) (classify c Q) := by
  by_cases hgrant : Q = c.tokenGrant.bytes
  · rw [decodeText, classify, if_pos hgrant, if_pos hgrant]
    exact .grant
  by_cases hdeny : Q = c.tokenDeny.bytes
  · rw [decodeText, classify, if_neg hgrant, if_neg hgrant, if_pos hdeny, if_pos hdeny]
    exact .deny
  rw [decodeText, classify, if_neg hgrant, if_neg hgrant, if_neg hdeny, if_neg hdeny]
  cases hs : split Q with
  | nil => exact absurd hs (split_ne_nil Q)
  | cons kind fields =>
    simp only [parseCmd, hs, List.headD_cons]
    by_cases hunlock : kind = Config.remoteUnlockText
    · rw [if_pos hunlock, if_pos hunlock]
      match fields with
      | [cid, ini, dur] => exact .unlock cid ini dur
      | [] => exact .invalidUnlock []
      | [a] => exact .invalidUnlock [a]
      | [a, b] => exact .invalidUnlock [a, b]
      | a :: b :: d :: e :: rest => exact .invalidUnlock (a :: b :: d :: e :: rest)
    rw [if_neg hunlock, if_neg hunlock]
    by_cases hlock : kind = Config.remoteLockText
    · rw [if_pos hlock, if_pos hlock]
      match fields with
      | [cid, ini] => exact .lock cid ini
      | [] => exact .invalidLock []
      | [a] => exact .invalidLock [a]
      | a :: b :: d :: rest => exact .invalidLock (a :: b :: d :: rest)
    rw [if_neg hlock, if_neg hlock]
    exact .unrecognized

/-- A payload runs, at the clock sample, the row it decodes to (R140). -/
theorem exec_decodeText (Q : Bytes) (s : State) :
    exec (decodeText s.cfg Q) s = .next (rxPayload s.clock Q s) := by
  have hrow := rowClassified_decodeText s.cfg Q
  unfold rxPayload
  generalize decodeText s.cfg Q = i, classify s.cfg Q = k at hrow
  cases hrow <;> rfl

/-- What `decode` reads from a downlink frame is the row of its payload (R60, R99). -/
theorem decode_downlink {c : Config} {B : Bytes} {i : Instr} (hB : B.take 3 = c.rxPrefix.bytes)
    (h : decode c B = .instr i) : ∃ Q, dnReceive c B = .payload Q ∧ i = decodeText c Q := by
  rw [decode, if_pos hB, decodeDnFrame] at h
  cases hr : dnReceive c B with
  | malformed r => simp [hr] at h
  | checksumMismatch => simp [hr] at h
  | payload Q =>
    simp only [hr, Decoded.instr.injEq] at h
    exact ⟨Q, rfl, h.symm⟩

/-- A downlink frame runs, at the clock sample, as the row it decodes to (R140). -/
theorem exec_rxProcess_downlink {B : Bytes} {i : Instr} {s : State} (hB : B.take 3 = s.cfg.rxPrefix.bytes)
    (h : decode s.cfg B = .instr i) : exec (.rxProcess s.clock B) s = exec i s := by
  obtain ⟨Q, hQ, rfl⟩ := decode_downlink hB h
  have hexec : exec (.rxProcess s.clock B) s = .next (rxProcess s.clock B s) := rfl
  rw [hexec, rxProcess_payload _ hQ, exec_decodeText]

/-- Settles O40: `exec_rxProcess_downlink`; RX_PROCESS always answers a next state. -/
theorem rxProcessRunsTheDecodedRow : Obligations.RxProcessRunsTheDecodedRow := fun _ _ _ hB h =>
  ⟨exec_rxProcess_downlink hB h, _, rfl⟩

/-! ### What `RX_PROCESS` leaves alone -/

/-- `RX_PROCESS` takes no answer of the transport or of the sensor: its buffer was polled before (R140). -/
theorem rxProcess_answers (now : Nat) (B : Bytes) (s : State) :
    (rxProcess now B s).pollAnswers = s.pollAnswers ∧ (rxProcess now B s).sensorAnswers = s.sensorAnswers := by
  obtain ⟨d, heq⟩ | ⟨-, heq⟩ | ⟨-, heq⟩ | ⟨cid, ini, d, -, -, -, -, heq⟩ | ⟨cid, ini, heq⟩ | ⟨cid, heq⟩ :=
    rxProcess_cases now B s <;> rw [heq]
  · exact ⟨rfl, rfl⟩
  · obtain ⟨t, hs, heq⟩ := xGrant_eq now s
    rw [heq]
    exact hs.answers
  · exact ⟨rfl, rfl⟩
  · exact ⟨rfl, rfl⟩
  · obtain ⟨t, hs, heq⟩ := remoteLock_eq now cid ini s
    rw [heq]
    exact hs.answers
  · exact (onlySends_invalidUnlock now cid s).answers

end Sys2Proof.Machine
end

section
/-! PROOF. `LOOP_STEP` (spec 44_exchange_fsm R136, R139, R147), one equation per branch: a hold before an exchange
before idle work. -/

namespace Sys2Proof.Machine

/-! ### Which branch runs -/

theorem loopStep_of_hold {s : State} (now : Nat) (hh : s.holdActive = true) :
    loopStep now s = stepHold now (sampleClock now s) := if_pos hh

theorem loopStep_of_awaiting {s : State} (now : Nat) (hh : s.holdActive = false) (hx : s.xstate = .awaitingDecision) :
    loopStep now s = stepWait now (sampleClock now s) := by
  simp only [loopStep, sampleClock_holdActive, hh, sampleClock_xstate, hx, Bool.false_eq_true, if_false, if_true]

theorem loopStep_of_idle {s : State} (now : Nat) (hh : s.holdActive = false) (hx : s.xstate = .idle) :
    loopStep now s = stepIdle now (sampleClock now s) := by
  simp only [loopStep, sampleClock_holdActive, hh, sampleClock_xstate, hx, Bool.false_eq_true, reduceCtorEq, if_false]

/-! ### Branch H -/

theorem stepHold_blocked {now : Nat} {s : State} (h : now < s.holdDeadline) : stepHold now s = s := if_pos h

theorem stepHold_over {now : Nat} {s : State} (h : s.holdDeadline ≤ now) : stepHold now s = holdFinish now s :=
  if_neg (Nat.not_lt.mpr h)

/-- Settles O41: before the deadline of the hold, and from it on. -/
theorem loopStepInAHold : Obligations.LoopStepInAHold := by
  intro now s hh
  have hexec : exec (.loopStep now) s = .next (stepHold now (sampleClock now s)) :=
    congrArg _ (loopStep_of_hold now hh)
  rw [hexec]
  refine ⟨fun hlt => ⟨congrArg _ (stepHold_blocked hlt), rfl⟩, fun hle => ?_⟩
  rw [stepHold_over (s := sampleClock now s) hle]
  exact ⟨rfl, _, rfl, holdFinish_holdActive now _, holdFinish_answers now (sampleClock now s)⟩

/-! ### Branch W -/

theorem stepWait_timeout {now : Nat} {s : State} (h : s.xdeadline ≤ now) : stepWait now s = xTimeout now s := if_pos h

theorem stepWait_between_polls {now : Nat} {s : State} (hd : now < s.xdeadline) (hp : now < s.nextPoll) :
    stepWait now s = s := by
  rw [stepWait, if_neg (Nat.not_le.mpr hd), if_pos hp]

/-- A poll is due, and the transport answers nothing. -/
theorem stepWait_silent {now : Nat} {s : State} (hd : now < s.xdeadline) (hp : s.nextPoll ≤ now)
    (ha : s.pollAnswers.headD none = none) :
    stepWait now s = { s with nextPoll := now + s.cfg.pollInterval, pollAnswers := s.pollAnswers.tail } := by
  simp only [stepWait, if_neg (Nat.not_le.mpr hd), if_neg (Nat.not_lt.mpr hp), poll, ha]

/-- A poll is due, and the transport answers a buffer. -/
theorem stepWait_polled {now : Nat} {s : State} {B : Bytes} (hd : now < s.xdeadline) (hp : s.nextPoll ≤ now)
    (ha : s.pollAnswers.headD none = some B) :
    stepWait now s =
      rxProcess now B { s with nextPoll := now + s.cfg.pollInterval, pollAnswers := s.pollAnswers.tail } := by
  simp only [stepWait, if_neg (Nat.not_le.mpr hd), if_neg (Nat.not_lt.mpr hp), poll, ha]

/-- Branch W does not sample the sensor: neither the time-out nor the row of a polled buffer does. -/
theorem stepWait_sensorAnswers (now : Nat) (s : State) : (stepWait now s).sensorAnswers = s.sensorAnswers := by
  by_cases hd : s.xdeadline ≤ now
  · rw [stepWait_timeout hd]
    rfl
  by_cases hp : now < s.nextPoll
  · rw [stepWait_between_polls (Nat.lt_of_not_le hd) hp]
  cases ha : s.pollAnswers.headD none with
  | none => rw [stepWait_silent (Nat.lt_of_not_le hd) (Nat.le_of_not_lt hp) ha]
  | some B =>
    rw [stepWait_polled (Nat.lt_of_not_le hd) (Nat.le_of_not_lt hp) ha]
    exact (rxProcess_answers now B _).2

/-- Settles O42: the four cases of branch W, and its sensor. -/
theorem loopStepAwaitingDecision : Obligations.LoopStepAwaitingDecision := by
  intro now s hh hx
  have hexec : exec (.loopStep now) s = .next (stepWait now (sampleClock now s)) :=
    congrArg _ (loopStep_of_awaiting now hh hx)
  refine ⟨fun hd => ?_, fun hd hp => ?_, fun hd hp ha => ?_, fun B hd hp ha => ?_, ?_⟩ <;> rw [hexec]
  · exact congrArg _ (stepWait_timeout hd)
  · exact congrArg _ (stepWait_between_polls hd hp)
  · exact congrArg _ (stepWait_silent hd hp ha)
  · exact congrArg _ (stepWait_polled hd hp ha)
  · exact ⟨_, rfl, stepWait_sensorAnswers now (sampleClock now s)⟩

/-! ### Branch I -/

theorem stepIdle_sensed {now : Nat} {s : State} {id : Bytes} (hs : s.sensorAnswers.headD none = some id) :
    stepIdle now s = xOpen now id { s with sensorAnswers := s.sensorAnswers.tail } := by
  simp only [stepIdle, sensorPoll, hs]

/-- Nothing is sensed and nothing received: only the heartbeat is left to check. -/
theorem stepIdle_silent {now : Nat} {s : State} (hh : s.holdActive = false) (hs : s.sensorAnswers.headD none = none)
    (ha : s.pollAnswers.headD none = none) :
    stepIdle now s =
      heartbeat now { s with sensorAnswers := s.sensorAnswers.tail, pollAnswers := s.pollAnswers.tail } := by
  simp only [stepIdle, sensorPoll, hs, idleTransport, poll, ha, hh, Bool.false_eq_true, if_false]

/-- A received buffer is processed, and the heartbeat is checked unless a hold began. -/
theorem stepIdle_polled {now : Nat} {s : State} {B : Bytes} (hs : s.sensorAnswers.headD none = none)
    (ha : s.pollAnswers.headD none = some B) :
    let t := rxProcess now B { s with sensorAnswers := s.sensorAnswers.tail, pollAnswers := s.pollAnswers.tail }
    stepIdle now s = if t.holdActive then t else heartbeat now t := by
  simp only [stepIdle, sensorPoll, hs, idleTransport, poll, ha]

/-- Settles O43: the three cases of branch I. -/
theorem loopStepIdle : Obligations.LoopStepIdle := by
  intro now s hh hx
  have hexec : exec (.loopStep now) s = .next (stepIdle now (sampleClock now s)) :=
    congrArg _ (loopStep_of_idle now hh hx)
  refine ⟨fun id hs => ?_, fun hs ha => ?_, fun B hs ha => ?_⟩ <;> rw [hexec]
  · exact congrArg _ (stepIdle_sensed hs)
  · exact congrArg _ (stepIdle_silent hh hs ha)
  · rw [stepIdle_polled (s := sampleClock now s) hs ha]
    exact ⟨_, rfl, fun h => congrArg _ (if_pos h), fun h => congrArg _ (if_neg (by simp [h]))⟩

/-! ### A polled frame runs inside the step -/

/-- Settles O45: the step of an unasked machine is LOOP_STEP, whose branch runs RX_PROCESS, which runs the row. -/
theorem polledFrameRunsInTheStep : Obligations.PolledFrameRunsInTheStep := by
  intro s B i hreq hh hB hdec ha
  rw [step_unasked hreq]
  refine ⟨fun hx hd hp => ?_, fun hx hs => ?_⟩
  · obtain ⟨-, -, -, hpolled, -⟩ := loopStepAwaitingDecision s.clock s hh hx
    rw [hpolled B hd hp ha]
    exact exec_rxProcess_downlink hB hdec
  · obtain ⟨-, -, hpolled⟩ := loopStepIdle s.clock s hh hx
    obtain ⟨t, ht, hhold, hfree⟩ := hpolled B hs ha
    have hrow := exec_rxProcess_downlink
      (s := { s with sensorAnswers := s.sensorAnswers.tail, pollAnswers := s.pollAnswers.tail }) hB hdec
    refine ⟨t, hrow.symm.trans ht, ?_⟩
    split
    · next h => exact hhold h
    · next h => exact hfree (Bool.eq_false_of_not_eq_true h)

end Sys2Proof.Machine
end

section
/-! PROOF. The end of an exchange (spec 44_exchange_fsm R151, R152): a step reports an outcome exactly when it resolves
the open exchange, and without a buffer the exchange times out at its deadline. -/

namespace Sys2Proof.Machine

theorem newCalls_eq {s t : State} {c : List EnvCall} (h : t.calls = s.calls ++ c) : newCalls s t = c := by
  rw [newCalls, h, List.drop_left]

/-! ### The calls of the three resolutions -/

/-- A grant reports, opens and sends one frame, in that order (R142). -/
theorem xGrant_calls (now : Nat) (s : State) : ∃ u F,
    (xGrant now s).calls = s.calls ++ (.report .granted :: .act .openGate :: sendCalls u F) := by
  rw [xGrant_eq_afterSend, startHold_calls, afterSend_calls]
  simp only [act_calls, report_calls, resolve_calls, List.append_assoc, List.cons_append, List.nil_append]
  exact ⟨_, _, rfl⟩

theorem xDeny_calls (now : Nat) (s : State) : (xDeny now s).calls = s.calls ++ [.report .denied] := rfl

theorem xTimeout_calls (now : Nat) (s : State) :
    (xTimeout now s).calls = s.calls ++ [.diag (.exchangeTimeout s.xseq), .report .timedOut] := by
  simp [xTimeout_eq]

theorem actsOf_sendCalls (s : State) (F : Bytes) : actsOf (sendCalls s F) = [] := by
  unfold sendCalls
  split <;> rfl

theorem reportsOf_sendCalls (s : State) (F : Bytes) : reportsOf (sendCalls s F) = [] := by
  unfold sendCalls
  split <;> rfl

/-! ### Every other operation reports nothing -/

theorem reportsOf_append (c d : List EnvCall) : reportsOf (c ++ d) = reportsOf c ++ reportsOf d := by
  induction c with
  | nil => rfl
  | cons x c ih => cases x <;> simp [reportsOf, ih]

theorem reportsOf_raise (d : Diag) (s : State) : reportsOf (raise d s).calls = reportsOf s.calls := by
  simp [reportsOf_append, reportsOf]

theorem reportsOf_act (a : Actuation) (s : State) : reportsOf (act a s).calls = reportsOf s.calls := by
  simp [reportsOf_append, reportsOf]

theorem reportsOf_txFrame (now : Nat) (t : Nibble) (p : Bytes) (s : State) :
    reportsOf (txFrame now t p s).calls = reportsOf s.calls := by
  obtain heq | ⟨F, -, heq⟩ := txFrame_cases now t p s <;> rw [heq]
  rw [afterSend_calls, reportsOf_append, reportsOf_sendCalls, List.append_nil]

theorem reportsOf_sendStatus (now : Nat) (text : Bytes) (s : State) :
    reportsOf (sendStatus now text s).calls = reportsOf s.calls :=
  reportsOf_txFrame now _ text s

theorem reportsOf_sendAck (now : Nat) (cid : Bytes) (flag : Byte) (text : Bytes) (s : State) :
    reportsOf (sendAck now cid flag text s).calls = reportsOf s.calls :=
  reportsOf_txFrame now _ _ s

theorem reportsOf_heartbeat (now : Nat) (s : State) : reportsOf (heartbeat now s).calls = reportsOf s.calls := by
  obtain heq | heq := heartbeat_cases now s <;> rw [heq]
  exact reportsOf_sendStatus now _ s

theorem reportsOf_invalidUnlock (now : Nat) (cid : Bytes) (s : State) :
    reportsOf (invalidUnlock now cid s).calls = reportsOf s.calls :=
  (reportsOf_sendAck now cid _ _ _).trans (reportsOf_raise _ s)

theorem reportsOf_remoteUnlock (now : Nat) (cid ini : Bytes) (d : Nat) (s : State) :
    reportsOf (remoteUnlock now cid ini d s).calls = reportsOf s.calls :=
  reportsOf_act .openGate _

theorem reportsOf_remoteLock (now : Nat) (cid ini : Bytes) (s : State) :
    reportsOf (remoteLock now cid ini s).calls = reportsOf s.calls :=
  calc reportsOf (remoteLock now cid ini s).calls
    _ = reportsOf (sendAck now cid Config.ackOk s.cfg.ackTextLock
          (act .closeGate (setCommand .lock cid ini 0 s))).calls := reportsOf_sendStatus now _ _
    _ = reportsOf (act .closeGate (setCommand .lock cid ini 0 s)).calls := reportsOf_sendAck now cid _ _ _
    _ = reportsOf s.calls := reportsOf_act .closeGate _

theorem reportsOf_xOpen (now : Nat) (id : Bytes) (s : State) :
    reportsOf (xOpen now id s).calls = reportsOf s.calls := by
  by_cases hlen : Config.idMax < id.length
  · rw [xOpen, sendScan_long now id s hlen]
    exact reportsOf_raise _ s
  · rw [xOpen, sendScan, if_neg hlen]
    exact reportsOf_txFrame now _ id s

theorem reportsOf_holdFinish (now : Nat) (s : State) :
    reportsOf (holdFinish now s).calls = reportsOf s.calls := by
  have hact := reportsOf_act .closeGate s
  cases hc : s.holdCause with
  | grant =>
    rw [holdFinish_of_grant now hc]
    exact (reportsOf_sendStatus now _ _).trans hact
  | unlock =>
    rw [holdFinish_of_unlock now hc]
    exact (reportsOf_sendStatus now _ _).trans ((reportsOf_sendAck now _ _ _ _).trans hact)

/-! ### What a step does to the exchange -/

/-- An exchange open in `s` is open in `t`, and `t` has reported no more than `s`. -/
structure LeavesOpen (s t : State) : Prop where
  xstate : s.xstate = .awaitingDecision → t.xstate = .awaitingDecision
  reports : reportsOf t.calls = reportsOf s.calls

theorem LeavesOpen.trans {s t u : State} (h : LeavesOpen s t) (h' : LeavesOpen t u) : LeavesOpen s u :=
  ⟨fun hx => h'.xstate (h.xstate hx), h'.reports.trans h.reports⟩

/-- Sampling the clock, taking an answer and pacing the polls leave the exchange open. -/
theorem leavesOpen_of_eq {s t : State} (hx : t.xstate = s.xstate) (hcalls : t.calls = s.calls) : LeavesOpen s t :=
  ⟨hx.trans, congrArg _ hcalls⟩

/-- The same where such a change came first. -/
theorem LeavesOpen.of_eq_start {s t u : State} (h : LeavesOpen t u) (hx : t.xstate = s.xstate)
    (hcalls : t.calls = s.calls) : LeavesOpen s u :=
  (leavesOpen_of_eq hx hcalls).trans h

theorem WritesWithin.leavesOpen {w : Footprint} {s t : State} (h : WritesWithin w s t) (hw : w.exchange = false)
    (hr : reportsOf t.calls = reportsOf s.calls) : LeavesOpen s t := by
  obtain ⟨hx, -⟩ := h.exchange hw
  exact ⟨hx.trans, hr⟩

theorem leavesOpen_heartbeat (now : Nat) (s : State) : LeavesOpen s (heartbeat now s) :=
  (writesWithin_heartbeat now s).leavesOpen rfl (reportsOf_heartbeat now s)

/-- While the exchange is open a hold is an unlock hold (R26 (b)), whose end leaves the exchange alone (R146). -/
theorem leavesOpen_holdFinish {s : State} (now : Nat) (h : s.Inv) (hh : s.holdActive = true) :
    LeavesOpen s (holdFinish now s) := by
  refine ⟨fun hx => ?_, reportsOf_holdFinish now s⟩
  obtain ⟨t, ⟨q, a, c, rfl⟩, heq⟩ := holdFinish_eq now s
  rw [heq]
  cases hc : s.holdCause with
  | grant => exact absurd (hx.symm.trans (h.grantHold.mpr ⟨hh, hc⟩)) (by decide)
  | unlock => exact hx

/-- `RX_PROCESS` resolves an open exchange by a token, or leaves it open (R140). -/
theorem rxProcess_resolution (now : Nat) (B : Bytes) (s : State) :
    (s.xstate = .awaitingDecision ∧ (rxProcess now B s = xGrant now s ∨ rxProcess now B s = xDeny now s)) ∨
      LeavesOpen s (rxProcess now B s) := by
  obtain ⟨d, heq⟩ | ⟨hx, heq⟩ | ⟨hx, heq⟩ | ⟨cid, ini, d, -, -, -, -, heq⟩ | ⟨cid, ini, heq⟩ | ⟨cid, heq⟩ :=
    rxProcess_cases now B s
  · rw [heq]
    exact .inr ((writesWithin_raise {} d s).leavesOpen rfl (reportsOf_raise d s))
  · exact .inl ⟨hx, .inl heq⟩
  · exact .inl ⟨hx, .inr heq⟩
  · rw [heq]
    exact .inr ((writesWithin_remoteUnlock now cid ini d s).leavesOpen rfl (reportsOf_remoteUnlock now cid ini d s))
  · rw [heq]
    exact .inr ((writesWithin_remoteLock now cid ini s).leavesOpen rfl (reportsOf_remoteLock now cid ini s))
  · rw [heq]
    exact .inr ((onlySends_invalidUnlock now cid s).writesWithin.leavesOpen rfl (reportsOf_invalidUnlock now cid s))

/-- `LOOP_STEP` resolves an open exchange by a token or, from the deadline on, by time-out, or leaves it open; a
resolution starts from a state that has made no call yet. -/
theorem loopStep_resolution {s : State} (now : Nat) (h : s.Inv) :
    (s.xstate = .awaitingDecision ∧ ∃ u,
      (loopStep now s = xGrant now u ∨ loopStep now s = xDeny now u ∨
        s.xdeadline ≤ now ∧ loopStep now s = xTimeout now u) ∧ u.calls = s.calls) ∨
    LeavesOpen s (loopStep now s) := by
  obtain ⟨-, -, heq⟩ | ⟨hh, -, heq⟩ | ⟨-, hx, hd, heq⟩ | ⟨-, -, -, -, heq⟩ | ⟨-, -, -, -, -, heq⟩ |
    ⟨B, -, hx, -, -, -, heq⟩ | ⟨id, -, hx, -, heq⟩ | ⟨-, hx, -, -, heq⟩ | ⟨B, t, -, hx, -, -, ht, heq⟩ :=
    loopStep_cases now s <;> rw [heq]
  · exact .inr (leavesOpen_of_eq rfl rfl)
  · have hclock : (sampleClock now s).Inv := h.of_sameRecords rfl
    exact .inr ((leavesOpen_holdFinish now hclock hh).of_eq_start rfl rfl)
  · exact .inl ⟨hx, _, .inr (.inr ⟨hd, rfl⟩), rfl⟩
  · exact .inr (leavesOpen_of_eq rfl rfl)
  · exact .inr (leavesOpen_of_eq rfl rfl)
  · obtain ⟨-, hgrant | hdeny⟩ | hopen := rxProcess_resolution now B
      { sampleClock now s with nextPoll := now + s.cfg.pollInterval, pollAnswers := s.pollAnswers.tail }
    · exact .inl ⟨hx, _, .inl hgrant, rfl⟩
    · exact .inl ⟨hx, _, .inr (.inl hdeny), rfl⟩
    · exact .inr (hopen.of_eq_start rfl rfl)
  · exact .inr ⟨fun h' => absurd h' hx, reportsOf_xOpen now id _⟩
  · exact .inr ((leavesOpen_heartbeat now _).of_eq_start rfl rfl)
  · have hrx : LeavesOpen s t := by
      rw [ht]
      obtain ⟨hx', -⟩ | hopen := rxProcess_resolution now B
        { sampleClock now s with sensorAnswers := s.sensorAnswers.tail, pollAnswers := s.pollAnswers.tail }
      · exact absurd hx' hx
      · exact hopen.of_eq_start rfl rfl
    split
    · exact .inr hrx
    · exact .inr (hrx.trans (leavesOpen_heartbeat now t))

/-- Settles O56: the calls of each way `loopStep_resolution` gives. -/
theorem reportExactlyOnResolution : Obligations.ReportExactlyOnResolution := by
  intro now s h
  refine ⟨loopStep now s, rfl, ?_⟩
  obtain ⟨hx, u, heq | heq | ⟨hd, heq⟩, hu⟩ | hopen := loopStep_resolution now h
  · obtain ⟨v, F, hcalls⟩ := xGrant_calls now u
    rw [heq, newCalls_eq (hu ▸ hcalls)]
    exact .inl ⟨hx, xGrant_xstate now u, by simp [reportsOf, reportsOf_sendCalls], by simp [actsOf, actsOf_sendCalls],
      by simp [framesOf, framesOf_sendCalls]⟩
  · rw [heq, newCalls_eq (hu ▸ xDeny_calls now u)]
    exact .inr (.inl ⟨hx, rfl, rfl, rfl, .inl rfl⟩)
  · rw [heq, newCalls_eq (hu ▸ xTimeout_calls now u)]
    exact .inr (.inl ⟨hx, rfl, rfl, rfl, .inr ⟨rfl, hd⟩⟩)
  · obtain ⟨c, hcalls, -⟩ := (advances_loopStep now s).counts
    have hreports := hopen.reports
    rw [hcalls, reportsOf_append, List.append_right_eq_self] at hreports
    rw [newCalls_eq hcalls]
    exact .inr (.inr ⟨hopen.xstate, hreports⟩)

/-! ### A silent transport -/

/-- An exchange is open under the sequence number `q` until `deadline`, and the transport has nothing to give. -/
structure AwaitsInSilence (q : BitVec 16) (deadline : Nat) (s : State) : Prop where
  holdActive : s.holdActive = false
  xstate : s.xstate = .awaitingDecision
  xseq : s.xseq = q
  xdeadline : s.xdeadline = deadline
  pollAnswers : ∀ a ∈ s.pollAnswers, a = none

section Silence

variable {q : BitVec 16} {deadline : Nat} {s : State}

/-- A sensed identifier within the limit opens the exchange (R138). -/
theorem awaitsInSilence_opened {id : Bytes} (t0 : Nat) (hx : s.xstate = .idle) (hh : s.holdActive = false)
    (hs : s.sensorAnswers.headD none = some id) (hid : id.length ≤ 10) (ha : ∀ a ∈ s.pollAnswers, a = none) :
    AwaitsInSilence s.seq (t0 + 12000) (loopStep t0 s) := by
  rw [loopStep_of_idle t0 hh hx, stepIdle_sensed (s := sampleClock t0 s) hs, xOpen, sendScan_short _ _ _ hid]
  exact ⟨hh, rfl, rfl, rfl, ha⟩

/-- A silent transport answers nothing at the next poll. -/
theorem AwaitsInSilence.next_answer (h : AwaitsInSilence q deadline s) : s.pollAnswers.headD none = none := by
  cases ha : s.pollAnswers with
  | nil => rfl
  | cons a rest => exact h.pollAnswers a (by simp [ha])

/-- Before the deadline a step makes no call and waits on, whether or not it polls (R139). -/
theorem AwaitsInSilence.step (h : AwaitsInSilence q deadline s) {now : Nat} (hnow : now < deadline) :
    AwaitsInSilence q deadline (loopStep now s) ∧ (loopStep now s).calls = s.calls := by
  have hd : now < (sampleClock now s).xdeadline := h.xdeadline ▸ hnow
  rw [loopStep_of_awaiting now h.holdActive h.xstate]
  by_cases hp : now < s.nextPoll
  · rw [stepWait_between_polls hd hp]
    exact ⟨⟨h.holdActive, h.xstate, h.xseq, h.xdeadline, h.pollAnswers⟩, rfl⟩
  · rw [stepWait_silent hd (Nat.le_of_not_lt hp) h.next_answer]
    exact ⟨⟨h.holdActive, h.xstate, h.xseq, h.xdeadline, fun a ha => h.pollAnswers a (List.mem_of_mem_tail ha)⟩, rfl⟩

/-- So do any number of steps before the deadline. -/
theorem AwaitsInSilence.run (h : AwaitsInSilence q deadline s) {samples : List Nat}
    (hsamples : ∀ n ∈ samples, n < deadline) :
    AwaitsInSilence q deadline (loopRun s samples) ∧ (loopRun s samples).calls = s.calls := by
  induction samples generalizing s with
  | nil => exact ⟨h, rfl⟩
  | cons now rest ih =>
    obtain ⟨hnow, hrest⟩ := List.forall_mem_cons.mp hsamples
    obtain ⟨hstep, hcalls⟩ := h.step hnow
    obtain ⟨hrun, hcalls'⟩ := ih hstep hrest
    exact ⟨hrun, hcalls'.trans hcalls⟩

/-- From the deadline on the step is the time-out (R139, R144). -/
theorem AwaitsInSilence.loopStep_eq_xTimeout (h : AwaitsInSilence q deadline s) {now : Nat} (hnow : deadline ≤ now) :
    loopStep now s = xTimeout now (sampleClock now s) := by
  rw [loopStep_of_awaiting now h.holdActive h.xstate]
  exact stepWait_timeout (h.xdeadline.trans_le hnow)

end Silence

/-- The last of the samples before the deadline, or the opening itself, lies before the deadline. -/
theorem lastSample_lt {t0 : Nat} {samples : List Nat} (h : ∀ n ∈ samples, n < t0 + 12000) :
    samples.getLast?.getD t0 < t0 + 12000 := by
  cases hl : samples.getLast? with
  | none => simp
  | some n => exact h n (List.mem_of_getLast? hl)

/-- Settles O57: the exchange waits in silence through the samples, and then times out. -/
theorem timeoutAtTheDeadline : Obligations.TimeoutAtTheDeadline := by
  intro s t0 id samples last hx hh hs hid ha hsamples hlast
  obtain ⟨hwait, hcalls⟩ := (awaitsInSilence_opened t0 hx hh hs hid ha).run hsamples
  have htimeout := hwait.loopStep_eq_xTimeout hlast
  refine ⟨newCalls_eq (by rw [hcalls, List.append_nil]), hwait.xstate, ?_, ?_, fun hle => ?_⟩
  · rw [htimeout, ← hwait.xseq]
    exact newCalls_eq (xTimeout_calls last _)
  · rw [htimeout]
    rfl
  · have hlt := lastSample_lt hsamples
    omega

end Sys2Proof.Machine
end

section
/-! PROOF. The text parser (spec 45_command_dispatcher R161 to R165, R174): what SPLIT answers, the value of a digit
string, the duration policy, and one equation of PARSE_CMD for each form of a text. -/

namespace Sys2Proof.Machine

/-- Settles O17: the three laws of the fields of a text. -/
theorem splitSeparatesAtEveryColon : Obligations.SplitSeparatesAtEveryColon := fun Q _ =>
  ⟨split Q, rfl, joinFields_split Q, colon_notMem_split Q, split_length Q⟩

/-! ### Durations -/

theorem isDigit_iff (b : Byte) : isDigit b = true ↔ 0x30 ≤ b.toNat ∧ b.toNat ≤ 0x39 := by
  simp [isDigit]

theorem digitsValue_nil (acc : Nat) : digitsValue acc [] = acc := rfl

theorem digitsValue_cons (acc : Nat) (b : Byte) (rest : Bytes) :
    digitsValue acc (b :: rest) = digitsValue (10 * acc + (b.toNat - 0x30)) rest := (rfl)

/-- Reading digits from the left after `acc` is positional notation with `acc` above the most significant digit. -/
theorem digitsValue_eq_ofDigits (acc : Nat) (d : Bytes) :
    digitsValue acc d = Nat.ofDigits 10 (d.reverse.map fun b => b.toNat - 0x30) + 10 ^ d.length * acc := by
  induction d generalizing acc with
  | nil => simp [digitsValue_nil]
  | cons b rest ih =>
    rw [digitsValue_cons, ih]
    simp only [List.reverse_cons, List.map_append, List.map_cons, List.map_nil, Nat.ofDigits_append,
      Nat.ofDigits_singleton, List.length_map, List.length_reverse, List.length_cons]
    ring

theorem parseDuration_eq_some {d : Bytes} (hne : d ≠ []) (hd : ∀ b ∈ d, 0x30 ≤ b.toNat ∧ b.toNat ≤ 0x39) :
    parseDuration d = some (Nat.ofDigits 10 (d.reverse.map fun b => b.toNat - 0x30)) := by
  have hdigits : d.all isDigit = true := List.all_eq_true.mpr fun b hb => (isDigit_iff b).mpr (hd b hb)
  rw [parseDuration, if_pos ⟨List.length_pos_iff.mpr hne, hdigits⟩, digitsValue_eq_ofDigits, Nat.mul_zero,
    Nat.add_zero]

theorem parseDuration_eq_none {d : Bytes} (h : ¬ (d ≠ [] ∧ ∀ b ∈ d, 0x30 ≤ b.toNat ∧ b.toNat ≤ 0x39)) :
    parseDuration d = none := by
  refine if_neg fun ⟨hlen, hdigits⟩ => h ⟨List.length_pos_iff.mp hlen, fun b hb => ?_⟩
  exact (isDigit_iff b).mp (List.all_eq_true.mp hdigits b hb)

/-- Settles O18: a digit string has its decimal value, and every other text has none. -/
theorem parseDurationReadsDigits : Obligations.ParseDurationReadsDigits := fun d _ =>
  ⟨parseDuration d, rfl, fun ⟨hne, hd⟩ => parseDuration_eq_some hne hd, parseDuration_eq_none⟩

theorem clampDuration_above {v : Nat} (h : 30000 < v) : clampDuration (some v) = 30000 := if_pos h

theorem clampDuration_below {v : Nat} (h : v < 1000) : clampDuration (some v) = 5000 := by
  have habove : ¬ Config.durMax < v := Nat.not_lt.mpr (h.le.trans (by decide))
  rw [clampDuration, if_neg habove]
  exact if_pos h

theorem clampDuration_within {v : Nat} (hmin : 1000 ≤ v) (hmax : v ≤ 30000) : clampDuration (some v) = v := by
  have habove : ¬ Config.durMax < v := Nat.not_lt.mpr hmax
  rw [clampDuration, if_neg habove]
  exact if_neg (Nat.not_lt.mpr hmin)

/-- Settles O19: no duration, and the three ranges of a parsed one. -/
theorem clampDurationPolicy : Obligations.ClampDurationPolicy := by
  intro x _
  refine ⟨clampDuration x, rfl, ?_, ?_, ?_, ?_⟩
  · rintro rfl
    rfl
  · rintro v rfl h
    exact clampDuration_above h
  · rintro v rfl h
    exact clampDuration_below h
  · rintro v rfl hmin hmax
    exact clampDuration_within hmin hmax

/-! ### Commands, by the fields of the text (R162) -/

section Commands

variable {Q : Bytes} {fields : List Bytes}

theorem parseCmd_remoteUnlock {cid ini dur : Bytes} (h : split Q = [Config.remoteUnlockText, cid, ini, dur]) :
    parseCmd Q = .unlock cid ini (clampDuration (parseDuration dur)) := by
  rw [parseCmd, h]
  rfl

theorem parseCmd_invalidUnlock (h : split Q = Config.remoteUnlockText :: fields) (hcount : fields.length ≠ 3) :
    parseCmd Q = .invalidUnlock (fields.headD []) := by
  rw [parseCmd, h]
  match fields, hcount with
  | [], _ => rfl
  | [_], _ => rfl
  | [_, _], _ => rfl
  | _ :: _ :: _ :: _ :: _, _ => rfl

theorem parseCmd_remoteLock {cid ini : Bytes} (h : split Q = [Config.remoteLockText, cid, ini]) :
    parseCmd Q = .lock cid ini := by
  rw [parseCmd, h]
  rfl

theorem parseCmd_invalidLock (h : split Q = Config.remoteLockText :: fields) (hcount : fields.length ≠ 2) :
    parseCmd Q = .invalidLock := by
  rw [parseCmd, h]
  match fields, hcount with
  | [], _ => rfl
  | [_], _ => rfl
  | _ :: _ :: _ :: _, _ => rfl

theorem parseCmd_of_other_kind (hunlock : (split Q).headD [] ≠ Config.remoteUnlockText)
    (hlock : (split Q).headD [] ≠ Config.remoteLockText) : parseCmd Q = .notACommand := by
  simp only [parseCmd, if_neg hunlock, if_neg hlock]

theorem split_command {kind : Bytes} (hkind : fieldOk kind) (hf : ∀ f ∈ fields, fieldOk f) :
    split (joinFields (kind :: fields)) = kind :: fields :=
  split_joinFields _ (List.cons_ne_nil _ _) (List.forall_mem_cons.mpr ⟨hkind, hf⟩)

/-- Every text is its first field joined with its further fields. -/
theorem exists_fields_of_headD_split {kind : Bytes} (h : (split Q).headD [] = kind) :
    ∃ f : List Bytes, (∀ x ∈ f, fieldOk x) ∧ Q = joinFields (kind :: f) := by
  have hjoin := joinFields_split Q
  have hfields := colon_notMem_split Q
  cases hs : split Q with
  | nil => exact absurd hs (split_ne_nil Q)
  | cons g f =>
    rw [hs] at h hjoin hfields
    obtain rfl : g = kind := h
    exact ⟨f, (List.forall_mem_cons.mp hfields).2, hjoin.symm⟩

end Commands

/-- Settles O20: SPLIT reads the fields of a joined text back, so each clause is one equation of PARSE_CMD. -/
theorem parseCmdByFieldCount : Obligations.ParseCmdByFieldCount := by
  intro Q _
  have hunlock : fieldOk Config.remoteUnlockText := by decide
  have hlock : fieldOk Config.remoteLockText := by decide
  refine ⟨parseCmd Q, rfl, ?_, ?_, ?_, ?_, fun hother => ?_⟩
  · rintro cid ini dur hcid hini hdur rfl
    exact parseCmd_remoteUnlock (split_command hunlock (by simpa using ⟨hcid, hini, hdur⟩))
  · rintro f hf hcount rfl
    exact parseCmd_invalidUnlock (split_command hunlock hf) hcount
  · rintro cid ini hcid hini rfl
    exact parseCmd_remoteLock (split_command hlock (by simpa using ⟨hcid, hini⟩))
  · rintro f hf hcount rfl
    exact parseCmd_invalidLock (split_command hlock hf) hcount
  · refine parseCmd_of_other_kind (fun hkind => ?_) (fun hkind => ?_)
    · obtain ⟨f, hf, hQ⟩ := exists_fields_of_headD_split hkind
      exact (hother f hf).1 hQ
    · obtain ⟨f, hf, hQ⟩ := exists_fields_of_headD_split hkind
      exact (hother f hf).2 hQ

/-- Settles O22: a parsed unlock has a clamped duration; the two examples evaluate. -/
theorem unlockDurationAlwaysInRange : Obligations.UnlockDurationAlwaysInRange := by
  refine ⟨fun Q cid ini d h => ?_, by decide, by decide⟩
  obtain ⟨-, -, hrange⟩ := parseCmd_unlock Q cid ini d h
  exact hrange

end Sys2Proof.Machine
end

section
/-! PROOF. The Remote Command Dispatcher (spec 45_command_dispatcher R166 to R173, 60_exceptions R190): the exact next
state of each command row, and what survives of an acknowledgment cut to the payload's 16 bytes (R170). -/

namespace Sys2Proof.Machine

/-! ### The cut of an acknowledgment -/

section AckText

variable (cid text : Bytes) (flag : Byte)

/-- The acknowledgment text up to its flag (R79). -/
theorem ackText_eq_append :
    ackText cid flag text =
      (Config.ackHead ++ [Config.colon] ++ cid ++ [Config.colon]) ++ flag :: Config.colon :: text := by
  simp [ackText]

theorem ackText_length_before_flag :
    (Config.ackHead ++ [Config.colon] ++ cid ++ [Config.colon]).length = 5 + cid.length := by
  simp [Config.ackHead]
  omega

theorem ackText_length : (ackText cid flag text).length = 7 + cid.length + text.length := by
  rw [ackText_eq_append, List.length_append, ackText_length_before_flag, List.length_cons, List.length_cons]
  omega

theorem ackText_getElem?_flag : (ackText cid flag text)[5 + cid.length]? = some flag := by
  rw [ackText_eq_append, ← ackText_length_before_flag, List.getElem?_append_right (Nat.le_refl _), Nat.sub_self]
  rfl

end AckText

/-- Settles O28: where the flag stands in the text, and the text's length. -/
theorem acknowledgmentCut : Obligations.AcknowledgmentCut := by
  intro cid text flag
  have hwhole : (ackText cid flag text).take 16 = ackText cid flag text ↔ cid.length + text.length ≤ 9 := by
    rw [List.take_eq_self_iff, ackText_length]
    omega
  refine ⟨fun hshort => ?_, fun hlong => ?_, fun hle => hwhole.mpr (by omega), hwhole⟩
  · rw [List.getElem?_take_of_lt (by omega), ackText_getElem?_flag]
  · rw [ackText_eq_append, List.take_append_of_le_length]
    rw [ackText_length_before_flag]
    omega

/-! ### The command rows -/

/-- Settles O29: the row is `remoteUnlock` at the clock sample, and the policy keeps the duration in range. -/
theorem remoteUnlockStartsHold : Obligations.RemoteUnlockStartsHold := by
  intro _ _ dur _
  obtain ⟨hmin, hmax⟩ := clampDuration_range (parseDuration dur)
  exact ⟨_, rfl, hmin, hmax, rfl⟩

/-- Settles O30: both sends are sends of built frames, by R7's constraint on `MT_ACK`. -/
theorem remoteLockClosesAndAcknowledges : Obligations.RemoteLockClosesAndAcknowledges := by
  rintro cid ini s ⟨-, hack, -⟩
  have hexec : exec (.remoteLock cid ini) s = .next (cmdClear (sendStatus s.clock Config.statusClosed
      (sendAck s.clock cid Config.ackOk s.cfg.ackTextLock (act .closeGate (setCommand .lock cid ini 0 s))))) := rfl
  rw [hexec, sendAck_eq _ _ _ _ (act .closeGate (setCommand .lock cid ini 0 s)) hack, sendStatus_eq]
  rfl

/-- Settles O31: the acknowledgment is a send of a built frame, by R7's constraint on `MT_ACK`. -/
theorem invalidUnlockIsAcknowledged : Obligations.InvalidUnlockIsAcknowledged := by
  rintro fields s ⟨-, hack, -⟩
  exact congrArg _ (sendAck_eq s.clock (fields.headD []) Config.ackFail s.cfg.ackTextInvalid
    (raise (.invalidCommandFormat .unlock) s) hack)

/-- Settles O32: each row is one `raise`. -/
theorem invalidLockAndUnrecognizedDiscarded : Obligations.InvalidLockAndUnrecognizedDiscarded :=
  fun _ _ _ => ⟨rfl, rfl⟩

/-- Settles O33: the row is `cmdClear`. -/
theorem cmdClearDiscardsRecord : Obligations.CmdClearDiscardsRecord := fun _ => rfl

end Sys2Proof.Machine
end

section
/-! PROOF. Completion (spec 60_exceptions R186, R198), and what a step runs (R207, 44_exchange_fsm R136): the request,
or the row placed before it (log entry 4). -/

namespace Sys2Proof.Machine

/-- Settles O46: RESET makes no call, and every other instruction advances the state. -/
theorem everyInstructionCompletes : Obligations.EveryInstructionCompletes := by
  intro i s
  by_cases h : i = .reset
  · subst h
    exact ⟨_, rfl, [], List.append_nil s.calls⟩
  · obtain ⟨t, ht, hadv⟩ := exec_advances h s
    obtain ⟨c, hcalls, -⟩ := hadv.counts
    exact ⟨t, ht, c, hcalls.symm⟩

/-- Without a hold, branch I runs unless a decision is awaited (R136). -/
theorem loopStep_of_not_awaiting {s : State} (now : Nat) (hh : s.holdActive = false)
    (hx : s.xstate ≠ .awaitingDecision) : loopStep now s = stepIdle now (sampleClock now s) := by
  simp only [loopStep, sampleClock_holdActive, hh, sampleClock_xstate, hx, Bool.false_eq_true, if_false]

/-! ### What placing a row changes -/

section Placing

variable {s : State}

/-- While a decision is awaited, a frame is placed with the poll that is to read it due before the deadline. -/
theorem pollNext_of_awaiting (F : Bytes) (hh : s.holdActive = false) (hx : s.xstate = .awaitingDecision) :
    pollNext F s = { s with
      nextPoll := min s.nextPoll s.clock
      xdeadline := max s.xdeadline (s.clock + 1)
      pollAnswers := some F :: s.pollAnswers } := by
  rw [pollNext, if_pos hx, ← hh]

/-- Otherwise it is placed behind a silent sensor. -/
theorem pollNext_of_not_awaiting (F : Bytes) (hh : s.holdActive = false) (hx : s.xstate ≠ .awaitingDecision) :
    pollNext F s = { s with
      sensorAnswers := none :: s.sensorAnswers
      pollAnswers := some F :: s.pollAnswers } := by
  rw [pollNext, if_neg hx, ← hh]

theorem placeFrame_scan {F p : Bytes} {hdr : UpHeader} (h : decode s.cfg F = .instr (.scan hdr p)) :
    placeFrame F s = scanNext p s := by
  rw [placeFrame, h]
  rfl

theorem scanNext_of_idle (id : Bytes) (hh : s.holdActive = false) (hx : s.xstate = .idle) :
    scanNext id s = { s with sensorAnswers := some id :: s.sensorAnswers } := by
  rw [scanNext, ← hh, ← hx]

end Placing

/-! ### The step after placing -/

section Placed

variable {s : State} {nbits w : Nat}

/-- A downlink row placed where no decision is awaited: the sensor is silent, RX_PROCESS runs the row, and the
heartbeat is checked unless a hold began. -/
theorem step_withFetchWord_downlink {j : Instr} (hdec : decode s.cfg (bytesOfWord (nbits / 8) w) = .instr j)
    (hB : (bytesOfWord (nbits / 8) w).take 3 = s.cfg.rxPrefix.bytes) (hh : s.holdActive = false)
    (hx : s.xstate ≠ .awaitingDecision) :
    ∃ t, exec j s = .next t ∧
      step (s.withFetchWord nbits w) = if t.holdActive then .next t else exec (.heartbeat s.clock) t := by
  refine ⟨_, (exec_rxProcess_downlink hB hdec).symm, ?_⟩
  rw [step_withFetchWord, placeFrame_downlink hB, pollNext_of_not_awaiting _ hh hx]
  refine Eq.trans (congrArg _ ((loopStep_of_not_awaiting _ ?_ ?_).trans (stepIdle_polled ?_ ?_)))
    (apply_ite Host.Outcome.next _ _ _)
  exacts [hh, hx, rfl, rfl]

/-- A downlink row placed where a decision is awaited: the poll is due before the deadline, and RX_PROCESS runs the
row. -/
theorem step_withFetchWord_downlink_awaiting {j : Instr}
    (hdec : decode s.cfg (bytesOfWord (nbits / 8) w) = .instr j)
    (hB : (bytesOfWord (nbits / 8) w).take 3 = s.cfg.rxPrefix.bytes) (hh : s.holdActive = false)
    (hx : s.xstate = .awaitingDecision) :
    step (s.withFetchWord nbits w) = exec j { s with
      nextPoll := s.clock + s.cfg.pollInterval, xdeadline := max s.xdeadline (s.clock + 1) } := by
  have hdue : min s.nextPoll s.clock ≤ s.clock := Nat.min_le_right _ _
  have hopen : s.clock < max s.xdeadline (s.clock + 1) := Nat.le_max_right _ _
  rw [step_withFetchWord, placeFrame_downlink hB, pollNext_of_awaiting _ hh hx]
  refine Eq.trans ?_ (exec_rxProcess_downlink hB hdec)
  refine congrArg _ ((loopStep_of_awaiting _ ?_ ?_).trans (stepWait_polled ?_ ?_ ?_))
  exacts [hh, hx, hopen, hdue, rfl]

/-- A SCAN row placed in an idle block: the sensor gives its identifier, and branch I opens the exchange. -/
theorem step_withFetchWord_scan {hdr : UpHeader} {p : Bytes}
    (hdec : decode s.cfg (bytesOfWord (nbits / 8) w) = .instr (.scan hdr p)) (hh : s.holdActive = false)
    (hx : s.xstate = .idle) : step (s.withFetchWord nbits w) = exec (.xOpen s.clock p) s := by
  rw [step_withFetchWord, placeFrame_scan hdec, scanNext_of_idle p hh hx]
  refine congrArg _ ((loopStep_of_idle _ ?_ ?_).trans (stepIdle_sensed ?_))
  exacts [hh, hx, rfl]

end Placed

/-- Settles O44: what the step laws say of a request, then the row placed before the step in each of its three cases. -/
theorem stepRunsTheDecodedInstruction : Obligations.StepRunsTheDecodedInstruction := fun _ _ _ _ _ _ =>
  ⟨step_unasked, step_call, fun _ => step_withFetchWord_downlink, fun _ => step_withFetchWord_downlink_awaiting,
    fun _ _ => step_withFetchWord_scan⟩

end Sys2Proof.Machine
end

section
/-! PROOF. Reset and the race of an unlock hold with the decision window (spec 70_reset_and_hazards R210, R224): RESET
gives every register its reset value, and an exchange that an unlock hold outlasts times out at the step after it. -/

namespace Sys2Proof.Machine

/-! ### RESET -/

theorem exec_reset (s : State) : exec .reset s = .next { State.resetWith s.cfg with
    sensorAnswers := s.sensorAnswers, pollAnswers := s.pollAnswers, sendAnswers := s.sendAnswers
    requests := s.requests, calls := s.calls, result := s.result } := rfl

/-- Settles O48: `exec_reset` keeps the environment's lists and the straps, and the reset state gives the registers. -/
theorem resetRestoresEveryRegister : Obligations.ResetRestoresEveryRegister := by
  intro s
  refine ⟨_, exec_reset s, ?_⟩
  simp only [State.resetWith, and_self]

/-! ### An unlock hold that outlasts the exchange -/

section UnlockHold

variable {s : State}

/-- The end of an unlock hold discards the command, not the exchange (R146). -/
theorem writesWithin_holdFinish_of_unlock (now : Nat) (h : s.holdCause = .unlock) :
    WritesWithin { seq := true, hold := true, command := true } s (holdFinish now s) := by
  obtain ⟨t, ⟨q, a, c, rfl⟩, heq⟩ := holdFinish_eq now s
  rw [heq, h]
  constructor <;> simp

theorem loopStep_of_hold_over {now : Nat} (hh : s.holdActive = true) (hd : s.holdDeadline ≤ now) :
    loopStep now s = holdFinish now (sampleClock now s) :=
  (loopStep_of_hold now hh).trans (stepHold_over hd)

/-- A step from the deadline on is the time-out: it takes no answer first (R139, R149). -/
theorem loopStep_of_overdue {now : Nat} (hh : s.holdActive = false) (hx : s.xstate = .awaitingDecision)
    (hd : s.xdeadline ≤ now) : loopStep now s = xTimeout now (sampleClock now s) :=
  (loopStep_of_awaiting now hh hx).trans (stepWait_timeout hd)

end UnlockHold

/-- Settles O58: the hold's end keeps the exchange and the polls' answers, and the step after it is overdue. -/
theorem unlockHoldConsumesTheWindow : Obligations.UnlockHoldConsumesTheWindow := by
  intro s n1 n2 hh hc hx hwindow hover hlater finished after
  have hfinished : finished = holdFinish n1 (sampleClock n1 s) := loopStep_of_hold_over hh hover
  have hinactive : finished.holdActive = false := hfinished ▸ holdFinish_holdActive n1 _
  obtain ⟨hopen, hxseq, hdeadline, -⟩ :=
    (writesWithin_holdFinish_of_unlock n1 (s := sampleClock n1 s) hc).exchange rfl
  obtain ⟨hpolls, -⟩ := holdFinish_answers n1 (sampleClock n1 s)
  rw [← hfinished] at hopen hxseq hdeadline hpolls
  have hoverdue : finished.xdeadline ≤ n2 :=
    calc finished.xdeadline
      _ = s.xdeadline := hdeadline
      _ ≤ s.holdDeadline := hwindow
      _ ≤ n1 := hover
      _ ≤ n2 := hlater
  have hafter : after = xTimeout n2 (sampleClock n2 finished) :=
    loopStep_of_overdue hinactive (hopen.trans hx) hoverdue
  have hcalls : newCalls finished after = [.diag (.exchangeTimeout finished.xseq), .report .timedOut] :=
    newCalls_eq (hafter ▸ xTimeout_calls n2 _)
  refine ⟨hopen.trans hx, hdeadline, hinactive, hcalls.trans (by rw [hxseq]; rfl), ?_, ?_⟩ <;> rw [hafter]
  · rfl
  · exact hpolls

end Sys2Proof.Machine
end
